-- ==== Sys2Proof/Word.lean ====
section
/-! DEFINITION. The words of the block: a byte, the 16-bit output word, the two input words and the
cause mask. Widths: spec/00_scope.md rules R5 and R6, spec/30_encoding.md rules R46 and R47. -/

namespace Sys2Proof

/-- A byte, bit 0 the least significant (R6, R33). -/
abbrev Byte := BitVec 8

/-- The 16-bit word of `fdata` and of the three 16-bit fields (R5, R25). -/
abbrev Half := BitVec 16

/-- The control word, the three inputs written together: bit 9 = `rst`, bit 8 = `in_valid`,
bits 7:0 = `in_data` (R46). -/
abbrev ControlWord := BitVec 10

/-- The select code on `fsel` (R47). -/
abbrev SelCode := BitVec 5

/-- The discard causes, bit 0 SYNC1, bit 1 SYNC2, bit 2 CKSUM, bit 3 SHORT (R111). -/
abbrev CauseMask := BitVec 4

end Sys2Proof
end

