-- ==== Sys2Proof/Machine/Wired.lean ====
section
/-! DEFINITION. The constants wired into the block (R5, R21: constants, not registers). -/

namespace Sys2Proof.Wired

/-- SYNC1, which the byte at offset 0 must equal (R5, R45). -/
abbrev sync1 : Byte := 0xCC#8

/-- SYNC2, which the byte at offset 1 must equal (R5, R45). -/
abbrev sync2 : Byte := 0x55#8

/-- POLY, the reflected polynomial of the checksum (R5, R60). -/
abbrev poly : Byte := 0x8C#8

/-- The seed of a frame's fold (R5, R61). -/
abbrev seed : Byte := 0x00#8

/-- MIN_LEN: the least declared length that is parsed (R5, R76). -/
abbrev minLen : Byte := 13#8

/-- The least count at which the boundary is tested (R5, R75). -/
abbrev boundaryFloor : Byte := 3#8

/-- The count at which the position counter saturates (R5, R12, R80). -/
abbrev cntMax : Byte := 255#8

end Sys2Proof.Wired
end

