-- ==== Sys2Proof/Machine/Checksum.lean ====
section
/-! DEFINITION. The checksum-8 engine: CK8, CKFOLD and the pseudo-identity bytes
(spec/40_checksum.md R60, R61, R65). -/

namespace Sys2Proof.Machine

/-- One iteration: the low bit is tested before the logical shift (R60). -/
def crcShift (v : Byte) : Byte :=
  if v.getLsbD 0 then (v >>> 1) ^^^ Wired.poly else v >>> 1

/-- CK8: eight iterations, all of them made, on `seed ^ data` (R60). -/
def checksum8 (seed data : Byte) : Byte :=
  crcShift (crcShift (crcShift (crcShift (crcShift (crcShift (crcShift (crcShift (seed ^^^ data))))))))

/-- CKFOLD: the fold from the left, from seed 0 (R61). -/
def checksumFrame (bytes : List Byte) : Byte :=
  bytes.foldl checksum8 Wired.seed

/-- PIDx: the iteration number is the seed, the identifier the data (R65). -/
def pid (x devId : Byte) : Byte := checksum8 x devId

end Sys2Proof.Machine
end

