-- ==== Sys2Proof/Config.lean ====
section
/-! DEFINITION. The two sizes of the block that its types do not already carry. The block has no open
parameter and no free value (R5; spec/92_eei_decisions.md, "Parameters left OPEN": none belongs to the
block). The wired constants a test could show wrong stand in Sys2Proof/Machine/Wired.lean. -/

namespace Sys2Proof.Config

/-- Cells of the frame buffer, offsets 0 to 254 (R5, R11, R40). -/
def bufCells : Nat := 255

/-- MAX_LEN: the greatest length a frame can declare, Length being one byte (R5, R45). -/
def maxLen : Nat := 255

end Sys2Proof.Config
end

