-- ==== Sys2Proof/Syntax.lean ====
section
/-! DEFINITION. The operations of the block as syntax: one constructor for each of the 36 rows of
spec/opcode_table.json (R8: a step operation chosen by the control word, a mux read chosen by `fsel`,
or one frame), and the words a stimulus is made of. -/

namespace Sys2Proof

/-- The three ways a word reaches the block, the `format` of an opcode-table row: C, S and F. -/
inductive Port where
  /-- format C: the control word `{rst, in_valid, in_data}`, one a step (R46) -/
  | control
  /-- format S: the select code on `fsel` (R47) -/
  | select
  /-- format F: the bytes of one frame, in stream order (R45) -/
  | stream
deriving DecidableEq, Repr

/-- One constructor per row of spec/opcode_table.json. The bits a row ignores are operands too, so
that every word is the encoding of exactly one instruction (R56: they have no effect). -/
inductive Instr where
  /-- RST (R71); both operands are the ignored bits 8 and 7:0 of the word (R56) -/
  | rst (inValid : BitVec 1) (inData : Byte)
  /-- IDLE (R72); the operand is the ignored bits 7:0 of the word (R56) -/
  | idle (inData : Byte)
  /-- PUSH b (R73) -/
  | push (b : Byte)
  /-- RD.RSV_00 (R107): offset 0, Sync1, is not kept -/
  | rdRsv00
  /-- RD.RSV_01 (R107): offset 1, Sync2, is not kept -/
  | rdRsv01
  /-- RD.LEN (R92) -/
  | rdLen
  /-- RD.DEVID (R93) -/
  | rdDevId
  /-- RD.INTERVAL (R94) -/
  | rdInterval
  /-- RD.VEROFF (R95) -/
  | rdVerOff
  /-- RD.RSV_06 (R107): offset 6 is the low byte of VersionOffset -/
  | rdRsv06
  /-- RD.VAL1 (R96) -/
  | rdVal1
  /-- RD.RSV_08 (R107): offset 8 is the low byte of Value1Raw -/
  | rdRsv08
  /-- RD.VAL2 (R97) -/
  | rdVal2
  /-- RD.RSV_0A (R107): offset 10 is the low byte of Value2Raw -/
  | rdRsv0A
  /-- RD.STATUS (R98) -/
  | rdStatus
  /-- RD.RSV_0C (R107): offset 12 is not kept -/
  | rdRsv0C
  /-- RD.RSV_0D (R107): offset 13 is not kept -/
  | rdRsv0D
  /-- RD.RSV_0E (R107): offset 14 is not kept -/
  | rdRsv0E
  /-- RD.RSV_0F (R107): offset 15 is not kept -/
  | rdRsv0F
  /-- RD.PID0 (R99) -/
  | rdPid0
  /-- RD.PID1 (R100) -/
  | rdPid1
  /-- RD.PID2 (R101) -/
  | rdPid2
  /-- RD.PID3 (R102) -/
  | rdPid3
  /-- RD.PID4 (R103) -/
  | rdPid4
  /-- RD.PID5 (R104) -/
  | rdPid5
  /-- RD.RSV_16 (R107) -/
  | rdRsv16
  /-- RD.RSV_17 (R107) -/
  | rdRsv17
  /-- RD.STAT (R105) -/
  | rdStat
  /-- RD.DBG (R106) -/
  | rdDbg
  /-- RD.RSV_1A (R107) -/
  | rdRsv1A
  /-- RD.RSV_1B (R107) -/
  | rdRsv1B
  /-- RD.RSV_1C (R107) -/
  | rdRsv1C
  /-- RD.RSV_1D (R107) -/
  | rdRsv1D
  /-- RD.RSV_1E (R107) -/
  | rdRsv1E
  /-- RD.RSV_1F (R107) -/
  | rdRsv1F
  /-- FRAME13 (R45): one frame. `reserved` is empty in the 13-byte frame of the table's pattern; with
  `n` reserved bytes it is the extended frame of `L = 13 + n` bytes (the row's own note, R45, R53).
  `checksum` is the byte at offset L-1, any value: a wrong one is what CKSUM reports (R76). -/
  | frame13 (devId interval : Byte) (verOff val1 val2 : Half) (status : Byte) (reserved : List Byte)
      (checksum : Byte)
deriving DecidableEq, Repr

/-- One item of a stimulus (R8 "program", R58), as the bits that reach the block. -/
inductive StimulusWord where
  | control (w : ControlWord)
  | select (c : SelCode)
  | stream (bytes : List Byte)
deriving DecidableEq, Repr

/-- The port an item arrives at. -/
def StimulusWord.port : StimulusWord → Port
  | .control _ => .control
  | .select _ => .select
  | .stream _ => .stream

/-- The `format` column of the instruction's row in spec/opcode_table.json. -/
def Instr.port : Instr → Port
  | .rst _ _ => .control
  | .idle _ => .control
  | .push _ => .control
  | .rdRsv00 => .select
  | .rdRsv01 => .select
  | .rdLen => .select
  | .rdDevId => .select
  | .rdInterval => .select
  | .rdVerOff => .select
  | .rdRsv06 => .select
  | .rdVal1 => .select
  | .rdRsv08 => .select
  | .rdVal2 => .select
  | .rdRsv0A => .select
  | .rdStatus => .select
  | .rdRsv0C => .select
  | .rdRsv0D => .select
  | .rdRsv0E => .select
  | .rdRsv0F => .select
  | .rdPid0 => .select
  | .rdPid1 => .select
  | .rdPid2 => .select
  | .rdPid3 => .select
  | .rdPid4 => .select
  | .rdPid5 => .select
  | .rdRsv16 => .select
  | .rdRsv17 => .select
  | .rdStat => .select
  | .rdDbg => .select
  | .rdRsv1A => .select
  | .rdRsv1B => .select
  | .rdRsv1C => .select
  | .rdRsv1D => .select
  | .rdRsv1E => .select
  | .rdRsv1F => .select
  | .frame13 _ _ _ _ _ _ _ _ => .stream

end Sys2Proof
end

