-- ==== Sys2Proof/WellFormed.lean ====
section
/-! DEFINITION. Which instruction terms stand for words. Operand widths are in the types, so one check
is left: a frame declares its length in one byte, so it has room for at most 242 reserved bytes (R45). -/

namespace Sys2Proof

/-- The fields of a frame that are not reserved bytes: twelve before them and the checksum (R45). -/
def frameFixedBytes : Nat := 13

/-- A frame's reserved bytes fit the one-byte Length (R45, R53); nothing else can be ill-formed. -/
def Instr.wellFormed : Instr → Bool
  | .frame13 _ _ _ _ _ _ reserved _ => decide (frameFixedBytes + reserved.length ≤ Config.maxLen)
  | .rst _ _ => true
  | .idle _ => true
  | .push _ => true
  | .rdRsv00 => true
  | .rdRsv01 => true
  | .rdLen => true
  | .rdDevId => true
  | .rdInterval => true
  | .rdVerOff => true
  | .rdRsv06 => true
  | .rdVal1 => true
  | .rdRsv08 => true
  | .rdVal2 => true
  | .rdRsv0A => true
  | .rdStatus => true
  | .rdRsv0C => true
  | .rdRsv0D => true
  | .rdRsv0E => true
  | .rdRsv0F => true
  | .rdPid0 => true
  | .rdPid1 => true
  | .rdPid2 => true
  | .rdPid3 => true
  | .rdPid4 => true
  | .rdPid5 => true
  | .rdRsv16 => true
  | .rdRsv17 => true
  | .rdStat => true
  | .rdDbg => true
  | .rdRsv1A => true
  | .rdRsv1B => true
  | .rdRsv1C => true
  | .rdRsv1D => true
  | .rdRsv1E => true
  | .rdRsv1F => true

end Sys2Proof
end

