-- ==== Sys2Proof/Decode.lean ====
section
/-! DEFINITION. Decoding a stimulus word and, after it, encoding an instruction, both from the encoding
tables of spec/30_encoding.md (R45, R46, R50, R51) and spec/opcode_table.json. -/

namespace Sys2Proof

/-- Why the bytes of a stream item are not the frame pattern of row FRAME13 (R45). Such bytes are still
legal to push one at a time (R57); they are only no FRAME13. -/
inductive Reject where
  /-- fewer than the twelve bytes before the reserved bytes -/
  | headerIncomplete
  /-- the byte at offset 0 is not SYNC1 -/
  | notSync1
  /-- the byte at offset 1 is not SYNC2 -/
  | notSync2
  /-- the byte at offset 2 declares less than the minimal frame -/
  | lengthBelowMinimum
  /-- fewer bytes than the byte at offset 2 declares -/
  | bytesMissing
  /-- more bytes than the byte at offset 2 declares -/
  | bytesLeftOver
deriving DecidableEq, Repr

/-- The control word's three fields choose the operation: R50's table, `rst` first. -/
def decodeControl (w : ControlWord) : Instr :=
  if w.extractLsb' 9 1 = 1#1 then .rst (w.extractLsb' 8 1) (w.extractLsb' 0 8)
  else if w.extractLsb' 8 1 = 1#1 then .push (w.extractLsb' 0 8)
  else .idle (w.extractLsb' 0 8)

/-- R51's table, all 32 codes. -/
def decodeSelect (c : SelCode) : Instr :=
  match c with
  | 0x00#5 => .rdRsv00
  | 0x01#5 => .rdRsv01
  | 0x02#5 => .rdLen
  | 0x03#5 => .rdDevId
  | 0x04#5 => .rdInterval
  | 0x05#5 => .rdVerOff
  | 0x06#5 => .rdRsv06
  | 0x07#5 => .rdVal1
  | 0x08#5 => .rdRsv08
  | 0x09#5 => .rdVal2
  | 0x0A#5 => .rdRsv0A
  | 0x0B#5 => .rdStatus
  | 0x0C#5 => .rdRsv0C
  | 0x0D#5 => .rdRsv0D
  | 0x0E#5 => .rdRsv0E
  | 0x0F#5 => .rdRsv0F
  | 0x10#5 => .rdPid0
  | 0x11#5 => .rdPid1
  | 0x12#5 => .rdPid2
  | 0x13#5 => .rdPid3
  | 0x14#5 => .rdPid4
  | 0x15#5 => .rdPid5
  | 0x16#5 => .rdRsv16
  | 0x17#5 => .rdRsv17
  | 0x18#5 => .rdStat
  | 0x19#5 => .rdDbg
  | 0x1A#5 => .rdRsv1A
  | 0x1B#5 => .rdRsv1B
  | 0x1C#5 => .rdRsv1C
  | 0x1D#5 => .rdRsv1D
  | 0x1E#5 => .rdRsv1E
  | _ => .rdRsv1F -- 0x1F, the one code left

/-- The frame at the head of a byte stream, and the bytes after it: R45's layout, offset by offset. -/
def decodeFrame : List Byte → Except Reject (Instr × List Byte)
  | s1 :: s2 :: len :: dev :: itv :: verH :: verL :: v1H :: v1L :: v2H :: v2L :: st :: rest =>
    if s1 ≠ Wired.sync1 then .error .notSync1
    else if s2 ≠ Wired.sync2 then .error .notSync2
    else if len < Wired.minLen then .error .lengthBelowMinimum
    else
      match rest.drop (len.toNat - frameFixedBytes) with
      | [] => .error .bytesMissing
      | k :: more =>
        .ok (.frame13 dev itv (verH ++ verL) (v1H ++ v1L) (v2H ++ v2L) st
          (rest.take (len.toNat - frameFixedBytes)) k, more)
  | _ => .error .headerIncomplete

/-- Decoding, total on every stimulus word: a control word and a select code always decode (R50, R51);
a stream item decodes when it is exactly one frame of the pattern (R45). -/
def decode : StimulusWord → Except Reject Instr
  | .control w => .ok (decodeControl w)
  | .select c => .ok (decodeSelect c)
  | .stream bytes =>
    match decodeFrame bytes with
    | .ok (i, []) => .ok i
    | .ok (_, _ :: _) => .error .bytesLeftOver
    | .error r => .error r

/-- A 16-bit field as its two bytes, the more significant first (R32, R45). -/
def bigEndian (v : Half) : List Byte := [v.extractLsb' 8 8, v.extractLsb' 0 8]

/-- The bytes of a frame before its checksum byte, Length counting every byte of the frame (R45). -/
def framePrefix (devId interval : Byte) (verOff val1 val2 : Half) (status : Byte)
    (reserved : List Byte) : List Byte :=
  [Wired.sync1, Wired.sync2, BitVec.ofNat 8 (frameFixedBytes + reserved.length), devId, interval]
    ++ bigEndian verOff ++ bigEndian val1 ++ bigEndian val2 ++ [status] ++ reserved

/-- The word of an instruction: R50's and R51's codes, R45's layout. -/
def encode : Instr → StimulusWord
  | .rst inValid inData => .control (1#1 ++ inValid ++ inData)
  | .idle inData => .control (0#1 ++ 0#1 ++ inData)
  | .push b => .control (0#1 ++ 1#1 ++ b)
  | .rdRsv00 => .select 0x00#5
  | .rdRsv01 => .select 0x01#5
  | .rdLen => .select 0x02#5
  | .rdDevId => .select 0x03#5
  | .rdInterval => .select 0x04#5
  | .rdVerOff => .select 0x05#5
  | .rdRsv06 => .select 0x06#5
  | .rdVal1 => .select 0x07#5
  | .rdRsv08 => .select 0x08#5
  | .rdVal2 => .select 0x09#5
  | .rdRsv0A => .select 0x0A#5
  | .rdStatus => .select 0x0B#5
  | .rdRsv0C => .select 0x0C#5
  | .rdRsv0D => .select 0x0D#5
  | .rdRsv0E => .select 0x0E#5
  | .rdRsv0F => .select 0x0F#5
  | .rdPid0 => .select 0x10#5
  | .rdPid1 => .select 0x11#5
  | .rdPid2 => .select 0x12#5
  | .rdPid3 => .select 0x13#5
  | .rdPid4 => .select 0x14#5
  | .rdPid5 => .select 0x15#5
  | .rdRsv16 => .select 0x16#5
  | .rdRsv17 => .select 0x17#5
  | .rdStat => .select 0x18#5
  | .rdDbg => .select 0x19#5
  | .rdRsv1A => .select 0x1A#5
  | .rdRsv1B => .select 0x1B#5
  | .rdRsv1C => .select 0x1C#5
  | .rdRsv1D => .select 0x1D#5
  | .rdRsv1E => .select 0x1E#5
  | .rdRsv1F => .select 0x1F#5
  | .frame13 devId interval verOff val1 val2 status reserved checksum =>
    .stream (framePrefix devId interval verOff val1 val2 status reserved ++ [checksum])

/-- The first `n` bytes of a number whose bits 7:0 are the first byte, 15:8 the second, and so on. -/
def bytesOf (w : Nat) : Nat → List Byte
  | 0 => []
  | n + 1 => BitVec.ofNat 8 w :: bytesOf (w / 256) n

/-- The stimulus word whose bits are `w`, as spec/opcode_table.json numbers them. The rows of one byte
are the select codes, those of two bytes the control words, and a longer row is a frame, laid out first
byte first with zeros above `nbits` and as long as its byte 2 declares (never below the 13 bytes of the
pattern). A number too wide for its port's wires is no word of that port; it stays as raw bytes, which
`decode` rejects. -/
def tableWord (nbits w : Nat) : StimulusWord :=
  if nbits ≤ 8 ∧ w < 2 ^ 5 then .select (BitVec.ofNat 5 w)
  else if 8 < nbits ∧ nbits ≤ 16 ∧ w < 2 ^ 10 then .control (BitVec.ofNat 10 w)
  else .stream (bytesOf (w % 2 ^ nbits) (max frameFixedBytes (w / 2 ^ 16 % 256)))

/-- The instruction the decoder reads from a table row's word. -/
def decodeTableWord (nbits w : Nat) : Option Instr :=
  match decode (tableWord nbits w) with
  | .ok i => some i
  | .error _ => none

end Sys2Proof
end

