-- ==== Sys2Proof/Machine/State.lean ====
section
/-! DEFINITION. The state of the block (spec/10_state.md R10, the whole list), the model's own fields
around it, the reasons a step can stop, and the state after reset (R23). -/

namespace Sys2Proof.Machine

/-- The frame buffer as cells (frame offset, byte), offsets strictly rising. A cell that is not listed
holds no value (R11, D17). -/
abbrev Memory := List Host.Cell

/-- The seven record registers (R15): the fields of the last emitted frame. -/
structure Record where
  /-- `REC_LEN` -/
  len : Byte
  /-- `REC_DEVID` -/
  devId : Byte
  /-- `REC_INTERVAL` -/
  interval : Byte
  /-- `REC_VEROFF` -/
  verOff : Half
  /-- `REC_VAL1` -/
  val1 : Half
  /-- `REC_VAL2` -/
  val2 : Half
  /-- `REC_STATUS` -/
  status : Byte
deriving DecidableEq, Repr

/-- The whole state of the block (R10). The state machine has no register of its own (R14): between
steps the block is always COLLECTING. -/
structure Block where
  /-- `BUF` (R11) -/
  buf : Memory
  /-- `CNT`, the position counter (R12) -/
  cnt : Byte
  /-- `CRC`, the checksum accumulator (R13) -/
  crc : Byte
  /-- `REC_LEN` to `REC_STATUS` (R15) -/
  record : Record
  /-- `RVLD` (R16) -/
  rvld : Bool
  /-- `EV_REC` (R17) -/
  evRec : Bool
  /-- `EV_DIS` (R17) -/
  evDis : Bool
  /-- `DCAUSE` (R17) -/
  dcause : CauseMask
deriving DecidableEq, Repr

/-- The machine: the block, and what the outside world puts on its inputs. `fsel` and the stimulus are
inputs, not state of the block (R21, R24); the model holds them so that a step is a function of State. -/
structure State where
  /-- the block's own state (R10) -/
  blk : Block
  /-- the code the consumer now holds on `fsel` (R24); notes/assumptions/2.md -/
  fsel : SelCode
  /-- the stimulus still to come, oldest first (R8 "program", R58); a step takes its first word off, and
  FRAME13 puts the PUSH words of its later bytes there (R59); notes/assumptions/1.md and 3.md -/
  pending : List StimulusWord
deriving DecidableEq, Repr

/-- Why the machine can stop. -/
inductive Fault where
  /-- PUSH and FRAME13 raise it when the boundary test, the validity check or the extractor would read a
  buffer cell that holds no value. The spec makes such a read inexpressible (R11, D17, U3), and no state
  reachable from reset makes one (R22 item 1). Safe: the model stops, it invents no byte. -/
  | cellHoldsNoValue
deriving DecidableEq, Repr

/-- Why an instruction has no meaning. -/
inductive Refusal where
  /-- The arm of an instruction whose meaning is not written. Safe. No arm answers it. -/
  | notModelled (mnemonic : String)
  /-- Step raises it when a stream item of the stimulus is not the frame pattern of row FRAME13, so that
  the item is no instruction of the opcode table. Safe: the same bytes can be pushed one at a time. -/
  | undecodable (why : Reject)
deriving DecidableEq, Repr

/-- All record registers at their reset value (R23). -/
def Record.zero : Record where
  len := 0x00#8
  devId := 0x00#8
  interval := 0x00#8
  verOff := 0x0000#16
  val1 := 0x0000#16
  val2 := 0x0000#16
  status := 0x00#8

/-- The block right after RST: R23, line by line. -/
def Block.reset : Block where
  buf := []
  cnt := 0
  crc := 0x00#8
  record := Record.zero
  rvld := false
  evRec := false
  evDis := false
  dcause := 0x0#4

/-- The machine right after reset: the block of R23, code 0 on `fsel` and no stimulus
(DESIGN CHOICE, notes/assumptions/2.md and 1.md: the two are inputs, for which no value is given). -/
def State.reset : State where
  blk := Block.reset
  fsel := 0x00#5
  pending := []

end Sys2Proof.Machine
end

