-- ==== Sys2Proof/Machine/Ops.lean ====
section
/-! DEFINITION. The named operations over the buffer and the registers, the stimulus fetch, and the two
ways a chunk ends: the discard, which is this block's exception entry (R8, R117), and the emit (R118),
with the clear that is the return to COLLECTING for both (R79, R119). -/

namespace Sys2Proof.Machine

/-- The canonical form of a buffer: offsets strictly rising, none outside the buffer's cells (R30, R40).
An unlisted cell holds no value, so no entry can equal what an unlisted offset reads as. -/
abbrev Memory.wf (m : Memory) : Prop :=
  m.Pairwise (fun p q => p.1 < q.1) ∧ ∀ p ∈ m, p.1 < Config.bufCells

/-- The byte of the cell at a frame offset, if it holds one (R11). -/
def Memory.read : Memory → Nat → Option Byte
  | [], _ => none
  | (k, x) :: m, a => if k = a then some x else Memory.read m a

/-- Write one cell, keeping the offsets rising. -/
def Memory.write : Memory → Nat → Byte → Memory
  | [], a, v => [(a, v)]
  | (k, x) :: m, a, v =>
    if a < k then (a, v) :: (k, x) :: m
    else if a = k then (a, v) :: m
    else (k, x) :: Memory.write m a v

/-- The bytes held, in offset order, which is stream order (R31). -/
def Memory.bytes (m : Memory) : List Byte := m.map Prod.snd

/-- No event: what every step first writes to the event flags (R17, R72, R73). -/
def Block.noEvent (b : Block) : Block :=
  { b with evRec := false, evDis := false, dcause := 0x0#4 }

/-- The append, part 1 of PUSH: the cell at the old count, the checksum step, the count (R74). -/
def Block.append (x : Byte) (b : Block) : Block :=
  { b with
    buf := b.buf.write b.cnt.toNat x
    crc := checksum8 b.crc x
    cnt := b.cnt + 1 }

/-- The clear, part 5 of PUSH: back to COLLECTING at offset 0, the one transfer of control and the
return from an emit and from a discard alike (R79, R81, R119). -/
def Block.clear (b : Block) : Block :=
  { b with buf := [], cnt := 0, crc := Wired.seed }

/-- Taking a discard, the block's trap entry (R78, R117): the event and its causes; the record registers
and `RVLD` untouched; nothing saved; control to offset 0. -/
def Block.discard (causes : CauseMask) (b : Block) : Block :=
  { b with evRec := false, evDis := true, dcause := causes }.clear

/-- Taking an emit (R77, R118): the record registers all together, `RVLD`, the event; control to
offset 0. -/
def Block.emit (r : Record) (b : Block) : Block :=
  { b with record := r, rvld := true, evRec := true, evDis := false, dcause := 0x0#4 }.clear

/-- Run a step operation on the block. An operation that would read a cell that holds no value answers
`none`, and the machine stops. -/
def State.onBlock (f : Block → Option Block) (s : State) : Host.Outcome State Fault Refusal :=
  match f s.blk with
  | some b => .next { s with blk := b }
  | none => .fault .cellHoldsNoValue

/-- A mux read: the consumer holds `c` on `fsel`, and `fdata` shows the word of that code. It is no step
of the block and changes none of its state (R38, R58, R91). -/
def State.select (c : SelCode) (s : State) : State := { s with fsel := c }

/-- Take the next stimulus word. With no stimulus left the producer offers nothing, which is the control
word of IDLE (R24; DESIGN CHOICE, notes/assumptions/1.md). -/
def State.fetch (s : State) : StimulusWord × State :=
  match s.pending with
  | [] => (.control 0x000#10, s)
  | x :: rest => (x, { s with pending := rest })

/-- Put a word where the next fetch takes it from. -/
def State.offer (x : StimulusWord) (s : State) : State := { s with pending := x :: s.pending }

/-- Put words where the next fetches take them from, the first of them first. -/
def State.offerAll (xs : List StimulusWord) (s : State) : State :=
  { s with pending := xs ++ s.pending }

end Sys2Proof.Machine
end

