-- ==== Sys2Proof/Machine/Operands.lean ====
section
/-! DEFINITION. The operand forms: a buffer cell, a big-endian pair of cells, the zero-extended byte, and
the field extractor EXTRACT built from them (R32, R48, R49, R90). -/

namespace Sys2Proof.Machine

/-- `zext_16(v)`: eight zero bits on top (R6, R49). -/
def zext16 (v : Byte) : Half := 0x00#8 ++ v

/-- The operand `BUF[k]`; `none` when the cell holds no value (R6, R11). -/
def Block.cell (k : Nat) (b : Block) : Option Byte := b.buf.read k

/-- The operand of `BUF[k]` and `BUF[k+1]` put together, the lower offset the more significant
(R32, R48). -/
def Block.cellPair (k : Nat) (b : Block) : Option Half :=
  match b.cell k, b.cell (k + 1) with
  | some hi, some lo => some (hi ++ lo)
  | _, _ => none

/-- EXTRACT: the seven fields from their fixed offsets, copied as they are (R90). -/
def Block.extract (b : Block) : Option Record :=
  match b.cell 2, b.cell 3, b.cell 4, b.cellPair 5, b.cellPair 7, b.cellPair 9, b.cell 11 with
  | some len, some devId, some interval, some verOff, some val1, some val2, some status =>
    some { len, devId, interval, verOff, val1, val2, status }
  | _, _, _, _, _, _, _ => none

end Sys2Proof.Machine
end

