-- ==== Sys2Proof/Machine/Flags.lean ====
section
/-! DEFINITION. Every flag the block computes: the boundary signal (R75), the cause bits (R76, R111),
`LOCK` (R18) and the two read-only views `STAT` (R19) and `DBG` (R20). -/

namespace Sys2Proof.Machine

/-- The boundary signal, read after the append: `CNT >= 3` and `CNT = BUF[2]` (R75). -/
def Block.boundary (b : Block) : Option Bool :=
  if b.cnt < Wired.boundaryFloor then some false
  else
    match b.cell 2 with
    | some len => some (decide (b.cnt = len))
    | none => none

/-- The four cause bits of a chunk from its first three bytes and its fold, all computed together, none
masking another: SHORT, CKSUM, SYNC2, SYNC1 from bit 3 down (R76, R111). -/
def causeMask (byte0 byte1 len fold : Byte) : CauseMask :=
  BitVec.ofBool (decide (len < Wired.minLen))
    ++ BitVec.ofBool (decide (fold ≠ 0x00#8))
    ++ BitVec.ofBool (decide (byte1 ≠ Wired.sync2))
    ++ BitVec.ofBool (decide (byte0 ≠ Wired.sync1))

/-- The validity check of the chunk now in the buffer (R76). -/
def Block.causes (b : Block) : Option CauseMask :=
  match b.cell 0, b.cell 1, b.cell 2 with
  | some byte0, some byte1, some len => some (causeMask byte0 byte1 len b.crc)
  | _, _, _ => none

/-- `LOCK`: `CNT >= 3`, and the cell at offset 2 holds a value below 3 (R18). -/
def Block.lock (b : Block) : Bool :=
  match b.cell 2 with
  | some len => decide (Wired.boundaryFloor ≤ b.cnt) && decide (len < 3#8)
  | none => false

/-- `STAT`: `{0x00, DCAUSE[3:0], EV_DIS, EV_REC, LOCK, RVLD}` (R19, R105). -/
def Block.stat (b : Block) : Half :=
  0x00#8 ++ b.dcause ++ BitVec.ofBool b.evDis ++ BitVec.ofBool b.evRec ++ BitVec.ofBool b.lock
    ++ BitVec.ofBool b.rvld

/-- `DBG`: `{CRC, CNT}` (R20, R106). -/
def Block.dbg (b : Block) : Half := b.crc ++ b.cnt

end Sys2Proof.Machine
end

