-- ==== Sys2Proof/Machine/Accumulator.lean ====
section
/-! DEFINITION. The three step operations RST, IDLE and PUSH (spec/41_accumulator.md), and the step of
the block on a control word (R70). -/

namespace Sys2Proof.Machine

/-- RST: every register at its reset value, from any state (R71, R23). -/
def Block.rst (b : Block) : Block :=
  { b with
    buf := []
    cnt := 0
    crc := 0x00#8
    record :=
      { len := 0x00#8, devId := 0x00#8, interval := 0x00#8, verOff := 0x0000#16, val1 := 0x0000#16,
        val2 := 0x0000#16, status := 0x00#8 }
    rvld := false
    evRec := false
    evDis := false
    dcause := 0x0#4 }

/-- IDLE: the event flags fall back to 0, everything else is unchanged (R72). -/
def Block.idle (b : Block) : Block := b.noEvent

/-- VALIDATING, inside the step of a byte that fires the boundary signal: emit when no cause bit is set,
discard otherwise (R76 to R79, R81). -/
def Block.judge (b : Block) : Option Block :=
  match b.causes with
  | none => none
  | some c =>
    if c = 0x0#4 then
      match b.extract with
      | some r => some (b.emit r)
      | none => none
    else some (b.discard c)

/-- PUSH: events off; at saturation the byte is dropped (R80); else append (R74), test the boundary on
the new values (R75), and judge the chunk if it has ended (R73). -/
def Block.push (x : Byte) (b : Block) : Option Block :=
  if b.cnt = Wired.cntMax then some b.noEvent
  else
    match (b.noEvent.append x).boundary with
    | none => none
    | some false => some (b.noEvent.append x)
    | some true => (b.noEvent.append x).judge

/-- The block after a run of bytes pushed one after another, a step each (R31, R59 `BYTES`): what claims
about such a run are stated in. -/
def Block.pushAll : List Byte → Block → Option Block
  | [], b => some b
  | x :: xs, b =>
    match b.push x with
    | some b' => Block.pushAll xs b'
    | none => none

/-- The meaning of RST; the ignored bits of its word have no effect (R71, R56). -/
def execRst (_inValid : BitVec 1) (_inData : Byte) (s : State) : Host.Outcome State Fault Refusal :=
  s.onBlock fun b => some b.rst

/-- The meaning of IDLE; the ignored bits of its word have no effect (R72, R56). -/
def execIdle (_inData : Byte) (s : State) : Host.Outcome State Fault Refusal :=
  s.onBlock fun b => some b.idle

/-- The meaning of PUSH (R73). -/
def execPush (x : Byte) (s : State) : Host.Outcome State Fault Refusal :=
  s.onBlock (Block.push x)

/-- The step function of the block on its three inputs, `rst` winning over `in_valid` (R70). -/
def Block.sample (w : ControlWord) (b : Block) : Option Block :=
  if w.getLsbD 9 then some b.rst
  else if w.getLsbD 8 then b.push (w.extractLsb' 0 8)
  else some b.idle

end Sys2Proof.Machine
end

