-- ==== Sys2Proof/Machine/Frame.lean ====
section
/-! DEFINITION. The meaning of a frame offered as one item of a stimulus (R8 "instruction: at data level,
one frame"; R45, R59). -/

namespace Sys2Proof.Machine

/-- The bytes of a frame in stream order, checksum last (R45). -/
def frameBytes (devId interval : Byte) (verOff val1 val2 : Half) (status : Byte) (reserved : List Byte)
    (checksum : Byte) : List Byte :=
  framePrefix devId interval verOff val1 val2 status reserved ++ [checksum]

/-- The checksum byte a sender must put at offset L-1: the fold of the bytes before it (R62, R59). -/
def goodChecksum (devId interval : Byte) (verOff val1 val2 : Half) (status : Byte)
    (reserved : List Byte) : Byte :=
  checksumFrame (framePrefix devId interval verOff val1 val2 status reserved)

/-- The control words of a run of bytes, one PUSH each (R59 `BYTES`). -/
def pushWords (bs : List Byte) : List StimulusWord := bs.map fun b => encode (.push b)

/-- A run of bytes offered as one item: this step is the PUSH of the first, and the PUSH words of the
others come next in the stimulus, so that every byte has a step of its own (R59 `BYTES`, R143;
notes/assumptions/3.md). -/
def State.pushBytes : List Byte → State → Host.Outcome State Fault Refusal
  | [], s => .next s
  | x :: xs, s => (s.offerAll (pushWords xs)).onBlock (Block.push x)

/-- FRAME13: the frame's bytes are pushed in order, a step of the block each, whatever the block was
collecting before (R31, R45, R59, R143). -/
def execFrame13 (devId interval : Byte) (verOff val1 val2 : Half) (status : Byte) (reserved : List Byte)
    (checksum : Byte) (s : State) : Host.Outcome State Fault Refusal :=
  s.pushBytes (frameBytes devId interval verOff val1 val2 status reserved checksum)

end Sys2Proof.Machine
end

