-- ==== Sys2Proof/Machine/Mux.lean ====
section
/-! DEFINITION. The read mux (spec/42_extract_mux.md R91 to R107): the word of each select code, the mux,
the outputs (R25), and the meaning of each RD operation. -/

namespace Sys2Proof.Machine

/-- The word of RD.LEN: `zext_16(REC_LEN)` (R92). -/
def wordLen (b : Block) : Half := zext16 b.record.len

/-- The word of RD.DEVID: `zext_16(REC_DEVID)` (R93). -/
def wordDevId (b : Block) : Half := zext16 b.record.devId

/-- The word of RD.INTERVAL: `zext_16(REC_INTERVAL)` (R94). -/
def wordInterval (b : Block) : Half := zext16 b.record.interval

/-- The word of RD.VEROFF: `REC_VEROFF` (R95). -/
def wordVerOff (b : Block) : Half := b.record.verOff

/-- The word of RD.VAL1: `REC_VAL1` (R96). -/
def wordVal1 (b : Block) : Half := b.record.val1

/-- The word of RD.VAL2: `REC_VAL2` (R97). -/
def wordVal2 (b : Block) : Half := b.record.val2

/-- The word of RD.STATUS: `zext_16(REC_STATUS)` (R98). -/
def wordStatus (b : Block) : Half := zext16 b.record.status

/-- The word of RD.PID0: `zext_16(checksum8(0, REC_DEVID))` (R99). -/
def wordPid0 (b : Block) : Half := zext16 (pid 0#8 b.record.devId)

/-- The word of RD.PID1: `zext_16(checksum8(1, REC_DEVID))` (R100). -/
def wordPid1 (b : Block) : Half := zext16 (pid 1#8 b.record.devId)

/-- The word of RD.PID2: `zext_16(checksum8(2, REC_DEVID))` (R101). -/
def wordPid2 (b : Block) : Half := zext16 (pid 2#8 b.record.devId)

/-- The word of RD.PID3: `zext_16(checksum8(3, REC_DEVID))` (R102). -/
def wordPid3 (b : Block) : Half := zext16 (pid 3#8 b.record.devId)

/-- The word of RD.PID4: `zext_16(checksum8(4, REC_DEVID))` (R103). -/
def wordPid4 (b : Block) : Half := zext16 (pid 4#8 b.record.devId)

/-- The word of RD.PID5: `zext_16(checksum8(5, REC_DEVID))` (R104). -/
def wordPid5 (b : Block) : Half := zext16 (pid 5#8 b.record.devId)

/-- The word of RD.STAT: `STAT` (R105). -/
def wordStat (b : Block) : Half := b.stat

/-- The word of RD.DBG: `DBG` (R106). -/
def wordDbg (b : Block) : Half := b.dbg

/-- The word of a reserved code: zero, and no error (R107, R55). -/
def wordReserved : Half := 0x0000#16

/-- The mux: `fdata` as a function of the present `fsel` and the present state (R51, R91). Every code not
listed is one of the 17 reserved ones (R55). -/
def Block.muxWord (c : SelCode) (b : Block) : Half :=
  match c with
  | 0x02#5 => wordLen b
  | 0x03#5 => wordDevId b
  | 0x04#5 => wordInterval b
  | 0x05#5 => wordVerOff b
  | 0x07#5 => wordVal1 b
  | 0x09#5 => wordVal2 b
  | 0x0B#5 => wordStatus b
  | 0x10#5 => wordPid0 b
  | 0x11#5 => wordPid1 b
  | 0x12#5 => wordPid2 b
  | 0x13#5 => wordPid3 b
  | 0x14#5 => wordPid4 b
  | 0x15#5 => wordPid5 b
  | 0x18#5 => wordStat b
  | 0x19#5 => wordDbg b
  | _ => wordReserved

/-- The outputs of the block (R25). -/
structure Outputs where
  evRec : Bool
  evDis : Bool
  dcause : CauseMask
  lock : Bool
  fdata : Half
deriving DecidableEq, Repr

/-- The word on `fdata` in a state: that of the code now on `fsel` (R25, R91). -/
def State.fdata (s : State) : Half := s.blk.muxWord s.fsel

/-- Every output is a function of the state and, for `fdata`, of the present `fsel` (R25). -/
def State.outputs (s : State) : Outputs where
  evRec := s.blk.evRec
  evDis := s.blk.evDis
  dcause := s.blk.dcause
  lock := s.blk.lock
  fdata := s.fdata

/-- RD.RSV_00: `fsel = 0x00` (R107). -/
def execRdRsv00 (s : State) : Host.Outcome State Fault Refusal := .next (s.select 0x00#5)

/-- RD.RSV_01: `fsel = 0x01` (R107). -/
def execRdRsv01 (s : State) : Host.Outcome State Fault Refusal := .next (s.select 0x01#5)

/-- RD.LEN: `fsel = 0x02` (R92). -/
def execRdLen (s : State) : Host.Outcome State Fault Refusal := .next (s.select 0x02#5)

/-- RD.DEVID: `fsel = 0x03` (R93). -/
def execRdDevId (s : State) : Host.Outcome State Fault Refusal := .next (s.select 0x03#5)

/-- RD.INTERVAL: `fsel = 0x04` (R94). -/
def execRdInterval (s : State) : Host.Outcome State Fault Refusal := .next (s.select 0x04#5)

/-- RD.VEROFF: `fsel = 0x05` (R95). -/
def execRdVerOff (s : State) : Host.Outcome State Fault Refusal := .next (s.select 0x05#5)

/-- RD.RSV_06: `fsel = 0x06` (R107). -/
def execRdRsv06 (s : State) : Host.Outcome State Fault Refusal := .next (s.select 0x06#5)

/-- RD.VAL1: `fsel = 0x07` (R96). -/
def execRdVal1 (s : State) : Host.Outcome State Fault Refusal := .next (s.select 0x07#5)

/-- RD.RSV_08: `fsel = 0x08` (R107). -/
def execRdRsv08 (s : State) : Host.Outcome State Fault Refusal := .next (s.select 0x08#5)

/-- RD.VAL2: `fsel = 0x09` (R97). -/
def execRdVal2 (s : State) : Host.Outcome State Fault Refusal := .next (s.select 0x09#5)

/-- RD.RSV_0A: `fsel = 0x0A` (R107). -/
def execRdRsv0A (s : State) : Host.Outcome State Fault Refusal := .next (s.select 0x0A#5)

/-- RD.STATUS: `fsel = 0x0B` (R98). -/
def execRdStatus (s : State) : Host.Outcome State Fault Refusal := .next (s.select 0x0B#5)

/-- RD.RSV_0C: `fsel = 0x0C` (R107). -/
def execRdRsv0C (s : State) : Host.Outcome State Fault Refusal := .next (s.select 0x0C#5)

/-- RD.RSV_0D: `fsel = 0x0D` (R107). -/
def execRdRsv0D (s : State) : Host.Outcome State Fault Refusal := .next (s.select 0x0D#5)

/-- RD.RSV_0E: `fsel = 0x0E` (R107). -/
def execRdRsv0E (s : State) : Host.Outcome State Fault Refusal := .next (s.select 0x0E#5)

/-- RD.RSV_0F: `fsel = 0x0F` (R107). -/
def execRdRsv0F (s : State) : Host.Outcome State Fault Refusal := .next (s.select 0x0F#5)

/-- RD.PID0: `fsel = 0x10` (R99). -/
def execRdPid0 (s : State) : Host.Outcome State Fault Refusal := .next (s.select 0x10#5)

/-- RD.PID1: `fsel = 0x11` (R100). -/
def execRdPid1 (s : State) : Host.Outcome State Fault Refusal := .next (s.select 0x11#5)

/-- RD.PID2: `fsel = 0x12` (R101). -/
def execRdPid2 (s : State) : Host.Outcome State Fault Refusal := .next (s.select 0x12#5)

/-- RD.PID3: `fsel = 0x13` (R102). -/
def execRdPid3 (s : State) : Host.Outcome State Fault Refusal := .next (s.select 0x13#5)

/-- RD.PID4: `fsel = 0x14` (R103). -/
def execRdPid4 (s : State) : Host.Outcome State Fault Refusal := .next (s.select 0x14#5)

/-- RD.PID5: `fsel = 0x15` (R104). -/
def execRdPid5 (s : State) : Host.Outcome State Fault Refusal := .next (s.select 0x15#5)

/-- RD.RSV_16: `fsel = 0x16` (R107). -/
def execRdRsv16 (s : State) : Host.Outcome State Fault Refusal := .next (s.select 0x16#5)

/-- RD.RSV_17: `fsel = 0x17` (R107). -/
def execRdRsv17 (s : State) : Host.Outcome State Fault Refusal := .next (s.select 0x17#5)

/-- RD.STAT: `fsel = 0x18` (R105). -/
def execRdStat (s : State) : Host.Outcome State Fault Refusal := .next (s.select 0x18#5)

/-- RD.DBG: `fsel = 0x19` (R106). -/
def execRdDbg (s : State) : Host.Outcome State Fault Refusal := .next (s.select 0x19#5)

/-- RD.RSV_1A: `fsel = 0x1A` (R107). -/
def execRdRsv1A (s : State) : Host.Outcome State Fault Refusal := .next (s.select 0x1A#5)

/-- RD.RSV_1B: `fsel = 0x1B` (R107). -/
def execRdRsv1B (s : State) : Host.Outcome State Fault Refusal := .next (s.select 0x1B#5)

/-- RD.RSV_1C: `fsel = 0x1C` (R107). -/
def execRdRsv1C (s : State) : Host.Outcome State Fault Refusal := .next (s.select 0x1C#5)

/-- RD.RSV_1D: `fsel = 0x1D` (R107). -/
def execRdRsv1D (s : State) : Host.Outcome State Fault Refusal := .next (s.select 0x1D#5)

/-- RD.RSV_1E: `fsel = 0x1E` (R107). -/
def execRdRsv1E (s : State) : Host.Outcome State Fault Refusal := .next (s.select 0x1E#5)

/-- RD.RSV_1F: `fsel = 0x1F` (R107). -/
def execRdRsv1F (s : State) : Host.Outcome State Fault Refusal := .next (s.select 0x1F#5)

end Sys2Proof.Machine
end

