-- ==== Sys2Proof/Machine/Dispatch.lean ====
section
/-! DEFINITION. The dispatch of an instruction to its meaning, one arm per constructor of Instr. -/

namespace Sys2Proof.Machine

def exec (i : Instr) (s : State) : Host.Outcome State Fault Refusal :=
  match i with
  | .rst inValid inData => Sys2Proof.Machine.execRst inValid inData s
  | .idle inData => Sys2Proof.Machine.execIdle inData s
  | .push b => Sys2Proof.Machine.execPush b s
  | .rdRsv00 => Sys2Proof.Machine.execRdRsv00 s
  | .rdRsv01 => Sys2Proof.Machine.execRdRsv01 s
  | .rdLen => Sys2Proof.Machine.execRdLen s
  | .rdDevId => Sys2Proof.Machine.execRdDevId s
  | .rdInterval => Sys2Proof.Machine.execRdInterval s
  | .rdVerOff => Sys2Proof.Machine.execRdVerOff s
  | .rdRsv06 => Sys2Proof.Machine.execRdRsv06 s
  | .rdVal1 => Sys2Proof.Machine.execRdVal1 s
  | .rdRsv08 => Sys2Proof.Machine.execRdRsv08 s
  | .rdVal2 => Sys2Proof.Machine.execRdVal2 s
  | .rdRsv0A => Sys2Proof.Machine.execRdRsv0A s
  | .rdStatus => Sys2Proof.Machine.execRdStatus s
  | .rdRsv0C => Sys2Proof.Machine.execRdRsv0C s
  | .rdRsv0D => Sys2Proof.Machine.execRdRsv0D s
  | .rdRsv0E => Sys2Proof.Machine.execRdRsv0E s
  | .rdRsv0F => Sys2Proof.Machine.execRdRsv0F s
  | .rdPid0 => Sys2Proof.Machine.execRdPid0 s
  | .rdPid1 => Sys2Proof.Machine.execRdPid1 s
  | .rdPid2 => Sys2Proof.Machine.execRdPid2 s
  | .rdPid3 => Sys2Proof.Machine.execRdPid3 s
  | .rdPid4 => Sys2Proof.Machine.execRdPid4 s
  | .rdPid5 => Sys2Proof.Machine.execRdPid5 s
  | .rdRsv16 => Sys2Proof.Machine.execRdRsv16 s
  | .rdRsv17 => Sys2Proof.Machine.execRdRsv17 s
  | .rdStat => Sys2Proof.Machine.execRdStat s
  | .rdDbg => Sys2Proof.Machine.execRdDbg s
  | .rdRsv1A => Sys2Proof.Machine.execRdRsv1A s
  | .rdRsv1B => Sys2Proof.Machine.execRdRsv1B s
  | .rdRsv1C => Sys2Proof.Machine.execRdRsv1C s
  | .rdRsv1D => Sys2Proof.Machine.execRdRsv1D s
  | .rdRsv1E => Sys2Proof.Machine.execRdRsv1E s
  | .rdRsv1F => Sys2Proof.Machine.execRdRsv1F s
  | .frame13 devId interval verOff val1 val2 status reserved checksum => Sys2Proof.Machine.execFrame13 devId interval verOff val1 val2 status reserved checksum s

end Sys2Proof.Machine
end

