-- ==== Sys2Proof/Machine/Step.lean ====
section
/-! DEFINITION. One step of the machine: take the next stimulus word, decode it, run it (R7, R70). -/

namespace Sys2Proof.Machine

/-- One step. A control word is one step of the block (R7); a select code is a read and no step of the
block (R58); a frame item is the step of its first byte, and leaves a PUSH word for each of the others
(R59, R143). -/
def step (s : State) : Host.Outcome State Fault Refusal :=
  match decode s.fetch.1 with
  | .ok i => exec i s.fetch.2
  | .error why => .refused (.undecodable why)

/-- The state whose very next step runs the instruction of an opcode-table word: the word stands at the
head of the stimulus. -/
def State.withFetchWord (s : State) (nbits w : Nat) : State := s.offer (tableWord nbits w)

end Sys2Proof.Machine
end

