-- ==== Sys2Proof/Machine/Stimulus.lean ====
section
/-! DEFINITION. The spec's stimulus notation and its shorthands (spec/30_encoding.md R58, R59). -/

namespace Sys2Proof.Machine

/-- One line of a stimulus, or one observation between two lines (R58, R59). -/
inductive Line where
  /-- `RST`, in its canonical form -/
  | rst
  /-- `IDLE n`; `IDLE` is `IDLE 1` -/
  | idle (n : Nat)
  /-- `BYTES b0 ... bn`; `PUSH b` is `BYTES b` -/
  | bytes (bs : List Byte)
  /-- `FRAME dev, itv, ver, v1, v2, st` (`reserved` empty) and `FRAMEX ..., r0 ... rn` -/
  | frame (devId interval : Byte) (verOff val1 val2 : Half) (status : Byte) (reserved : List Byte)
  /-- `RD code`, an observation and no step -/
  | rd (c : SelCode)
deriving DecidableEq, Repr

/-- The words a line stands for; a frame line carries the right checksum byte (R59, R62). -/
def Line.words : Line → List StimulusWord
  | .rst => [encode (.rst 0#1 0x00#8)]
  | .idle n => List.replicate n (encode (.idle 0x00#8))
  | .bytes bs => pushWords bs
  | .frame devId interval verOff val1 val2 status reserved =>
    pushWords (frameBytes devId interval verOff val1 val2 status reserved
      (goodChecksum devId interval verOff val1 val2 status reserved))
  | .rd c => [.select c]

/-- The words of a whole stimulus (R8 "program"). -/
def stimulus (lines : List Line) : List StimulusWord := lines.flatMap Line.words

end Sys2Proof.Machine
end

