-- ==== Sys2Proof/Safety.lean ====
section
/-! DEFINITION. The terms claims are stated in: the invariants of spec/10_state.md R22, the events of a
run of the block, and the chunks of spec/41_accumulator.md R83 said without the accumulator. -/

namespace Sys2Proof.Machine

/-- What holds between steps in every state reachable from reset: R22, item by item. -/
structure Block.Inv (b : Block) : Prop where
  /-- item 1: `BUF` has exactly `CNT` cells, those at offsets 0 to `CNT`-1 -/
  cells : b.buf.map Prod.fst = List.range b.cnt.toNat
  /-- item 2: `CRC` is the fold of the bytes held -/
  fold : b.crc = checksumFrame b.buf.bytes
  /-- item 2: and 0 when none is held -/
  foldEmpty : b.cnt = 0 → b.crc = 0x00#8
  /-- item 3: the boundary signal is never pending: the declared Length is above `CNT`, or below 3 -/
  noBoundary : 3#8 ≤ b.cnt → ∃ len, b.cell 2 = some len ∧ (b.cnt < len ∨ len < 3#8)
  /-- item 4 -/
  full : b.cnt = 255#8 → b.lock = true
  /-- item 5: emit and discard exclude each other -/
  oneEvent : ¬(b.evRec = true ∧ b.evDis = true)
  /-- item 5: a cause is shown exactly with a discard -/
  cause : b.dcause = 0x0#4 ↔ b.evDis = false
  /-- item 6: an event leaves the buffer clear -/
  eventClears : b.evRec = true ∨ b.evDis = true → b.cnt = 0
  /-- item 7: no record before the first emit -/
  noRecord : b.rvld = false → b.record = Record.zero
  /-- item 7: an emitted frame was long enough -/
  recordLen : b.rvld = true → 13#8 ≤ b.record.len

/-- The invariants of a machine state are those of its block; the inputs are free. -/
abbrev State.Inv (s : State) : Prop := s.blk.Inv

/-- A block in COLLECTING at offset 0: after RST, after an emit and after a discard (R79, R132). -/
structure Block.AtOffset0 (b : Block) : Prop where
  buf : b.buf = []
  cnt : b.cnt = 0
  crc : b.crc = 0x00#8

/-- An event towards the consumer (R114, R115): an emit with the record then in the registers, or a
discard with its causes. -/
inductive Event where
  | emit (record : Record)
  | discard (causes : CauseMask)
deriving DecidableEq, Repr

/-- The event a consumer sees in a state, if any (R17, R25). -/
def Block.events (b : Block) : List Event :=
  if b.evRec then [.emit b.record] else if b.evDis then [.discard b.dcause] else []

/-- A run of the block on control words: the events in order, and the state reached (R41). -/
def Block.feed : List ControlWord → Block → Option (List Event × Block)
  | [], b => some ([], b)
  | w :: ws, b =>
    match b.sample w with
    | none => none
    | some b' =>
      match Block.feed ws b' with
      | none => none
      | some (es, b'') => some (b'.events ++ es, b'')

/-- The control word of PUSH (R50). -/
def pushWord (b : Byte) : ControlWord := 0#1 ++ 1#1 ++ b

/-- The control words that R50 makes IDLE. -/
def isIdleWord (w : ControlWord) : Bool := !w.getLsbD 9 && !w.getLsbD 8

/-- The event of a finished chunk, from its bytes alone: an emit if its first byte is SYNC1, its second
SYNC2, its declared length at least 13 and its fold zero, otherwise a discard (R83, R76, R45). -/
def chunkEvent : List Byte → Option Event
  | b0 :: b1 :: len :: rest =>
    let fold := checksumFrame (b0 :: b1 :: len :: rest)
    if b0 = 0xCC#8 ∧ b1 = 0x55#8 ∧ 13 ≤ len.toNat ∧ fold = 0x00#8 then
      match rest with
      | dev :: itv :: verH :: verL :: v1H :: v1L :: v2H :: v2L :: st :: _ =>
        some (.emit { len := len, devId := dev, interval := itv, verOff := verH ++ verL,
                      val1 := v1H ++ v1L, val2 := v2H ++ v2L, status := st })
      | _ => none
    else some (.discard (causeMask b0 b1 len fold))
  | _ => none

/-- The events of a byte sequence cut into consecutive chunks, each as long as its own third byte says; a
third byte below 3 ends the cutting for ever (R83). `fuel` bounds the number of chunks. -/
def chunkEvents : Nat → List Byte → List Event
  | 0, _ => []
  | fuel + 1, bytes =>
    match bytes with
    | _ :: _ :: len :: _ =>
      if len.toNat < 3 ∨ bytes.length < len.toNat then []
      else (chunkEvent (bytes.take len.toNat)).toList ++ chunkEvents fuel (bytes.drop len.toNat)
    | _ => []

/-- The byte at offset 2 once `x` has been appended: `x` itself when it is the third byte (R43). -/
def Block.declaredWith (x : Byte) (b : Block) : Option Byte :=
  if b.cnt = 2#8 then some x else b.cell 2

/-- Pushing `x` ends a chunk that declares `len`: at least three bytes are then held, and as many as the
byte at offset 2 says (R75). -/
def Block.endsChunk (x len : Byte) (b : Block) : Prop :=
  2#8 ≤ b.cnt ∧ b.declaredWith x = some len ∧ len.toNat = b.cnt.toNat + 1

/-- Pushing `x` ends no chunk (R75). -/
def Block.endsNoChunk (x : Byte) (b : Block) : Prop := ∀ len, ¬b.endsChunk x len

/-- A read completes, shows `w` on `fdata` and changes nothing but the select input (R38, R91). -/
def Shows (i : Instr) (s : State) (w : Half) : Prop :=
  ∃ t, exec i s = .next t ∧ t.fdata = w ∧ t.blk = s.blk ∧ t.pending = s.pending

/-- The machine with a list of stimulus words still to come. -/
def State.withStimulus (ws : List StimulusWord) (s : State) : State := { s with pending := ws }

/-- A control word that R50 makes RST. -/
def isRstWord (w : ControlWord) : Bool := w.getLsbD 9

/-- A control word that R50 makes PUSH. -/
def isPushWord (w : ControlWord) : Bool := !w.getLsbD 9 && w.getLsbD 8

/-- Whether an event is an emit. -/
def Event.isEmit : Event → Bool
  | .emit _ => true
  | .discard _ => false

end Sys2Proof.Machine
end

