-- ==== Sys2Proof/Certificates/Slice0/Obligations.lean ====
section
/-! DEFINITION. The statements about the model, for the provers. Each docstring says the statement in
words; OBLIGATIONS.json names the rules of spec/ it rests on. -/

open Sys2Proof Sys2Proof.Machine

/-- The control words 0x3FF, 0x0AB and 0x1CC, the select codes 0x09, 0x15 and 0x06, and the thirteen
bytes of the frame F1 decode to RST, IDLE, PUSH 0xCC, RD.VAL2, RD.PID5, RD.RSV_06 and the frame with
F1's fields.
(30_encoding.md R45, 30_encoding.md R50, 30_encoding.md R51, 95_test_vectors.md 3.3) -/
def Obligations.SpelledOutWordsDecode : Prop :=
  decode (.control 0b1111111111#10) = .ok (.rst 1#1 0xFF#8) ∧
  decode (.control 0b0010101011#10) = .ok (.idle 0xAB#8) ∧
  decode (.control 0b0111001100#10) = .ok (.push 0xCC#8) ∧
  decode (.select 0b01001#5) = .ok .rdVal2 ∧
  decode (.select 0b10101#5) = .ok .rdPid5 ∧
  decode (.select 0b00110#5) = .ok .rdRsv06 ∧
  decode (.stream [0xCC#8, 0x55#8, 0x0D#8, 0x20#8, 0x0A#8, 0x00#8, 0x05#8, 0x02#8, 0xBC#8, 0x01#8,
      0x2C#8, 0x01#8, 0x1F#8]) =
    .ok (.frame13 0x20#8 0x0A#8 0x0005#16 0x02BC#16 0x012C#16 0x01#8 [] 0x1F#8)

/-- For every 10-bit control word: if it matches 0x200 under mask 0x200 it decodes to RST, if 0x000
under 0x300 to IDLE, if 0x100 under 0x300 to PUSH of bits 7:0 (RST and IDLE carrying the ignored
bits); and exactly one of the three matches holds.
(R50) -/
def Obligations.EveryControlWordIsOneOperation : Prop :=
  ∀ w : ControlWord,
    (w &&& 0x200#10 = 0x200#10 →
      decode (.control w) = .ok (.rst (w.extractLsb' 8 1) (w.extractLsb' 0 8))) ∧
    (w &&& 0x300#10 = 0x000#10 → decode (.control w) = .ok (.idle (w.extractLsb' 0 8))) ∧
    (w &&& 0x300#10 = 0x100#10 → decode (.control w) = .ok (.push (w.extractLsb' 0 8))) ∧
    (w &&& 0x200#10 = 0x200#10 ∨ w &&& 0x300#10 = 0x000#10 ∨ w &&& 0x300#10 = 0x100#10) ∧
    ¬(w &&& 0x200#10 = 0x200#10 ∧ w &&& 0x300#10 = 0x000#10) ∧
    ¬(w &&& 0x200#10 = 0x200#10 ∧ w &&& 0x300#10 = 0x100#10) ∧
    ¬(w &&& 0x300#10 = 0x000#10 ∧ w &&& 0x300#10 = 0x100#10)

/-- For every well-formed instruction, with every operand at every value, frames of every length 13 to
255 included: decode of encode of it is the instruction. (That ignored bits and any checksum byte
are operands is the model's choice: notes/assumptions/8.md.)
(30_encoding.md R45, 30_encoding.md R46, 30_encoding.md R50, 30_encoding.md R51, 30_encoding.md R53) -/
def Obligations.DecodeOfEncode : Prop :=
  ∀ i : Instr, i.wellFormed = true → decode (encode i) = .ok i

/-- For every stimulus word and instruction: if the word decodes to the instruction, the instruction is
well-formed and its encoding is that word, so every word has one meaning and no bit of it is
dropped. (That ignored bits and any checksum byte are operands is the model's choice:
notes/assumptions/8.md.)
(30_encoding.md R45, 30_encoding.md R50, 30_encoding.md R51) -/
def Obligations.EncodeOfDecode : Prop :=
  ∀ (x : StimulusWord) (i : Instr), decode x = .ok i → i.wellFormed = true ∧ encode i = x

/-- A list of bytes offered as a frame decodes if and only if its bytes at offsets 0 and 1 are 0xCC and
0x55 and its byte at offset 2 is its length and at least 13; every other list is rejected. (R57
makes no byte illegal to push, so two points are the model's choice and no rule of the spec: that
every other list is rejected, notes/assumptions/9.md, and that a frame with any checksum byte
decodes, notes/assumptions/8.md.)
(30_encoding.md R45, 30_encoding.md R53) -/
def Obligations.StreamItemDecodesExactlyWhenAFrame : Prop :=
  ∀ bytes : List Byte,
    (∃ i, decode (.stream bytes) = .ok i) ↔
      ∃ len rest, bytes = 0xCC#8 :: 0x55#8 :: len :: rest ∧ len.toNat = bytes.length ∧ 13 ≤ len.toNat

/-- checksum8(seed, data) is eight iterations, on seed xor data, of: shift right one bit and, if the low
bit was set, exclusive or with 0x8C; checksum8(s, s) is 0.
(40_checksum.md R60) -/
def Obligations.ChecksumIsEightShifts : Prop :=
  (∀ seed data : Byte,
    checksum8 seed data =
      (fun v : Byte => if v.getLsbD 0 then (v >>> 1) ^^^ 0x8C#8 else v >>> 1)^[8] (seed ^^^ data)) ∧
  ∀ s : Byte, checksum8 s s = 0x00#8

/-- With F(x) = checksum8(0, x): checksum8(s, d) = F(s xor d); F(a xor b) = F(a) xor F(b); F is one-to-
one and onto; and F takes the eight values of R63 item 4 on the single-bit bytes.
(40_checksum.md R63 items 1 to 4) -/
def Obligations.ChecksumIsLinearAndBijective : Prop :=
  (∀ s d : Byte, checksum8 s d = checksum8 0x00#8 (s ^^^ d)) ∧
  (∀ a b : Byte, checksum8 0x00#8 (a ^^^ b) = checksum8 0x00#8 a ^^^ checksum8 0x00#8 b) ∧
  Function.Bijective (checksum8 0x00#8) ∧
  [0x01#8, 0x02#8, 0x04#8, 0x08#8, 0x10#8, 0x20#8, 0x40#8, 0x80#8].map (checksum8 0x00#8) =
    [0x5E#8, 0xBC#8, 0x61#8, 0xC2#8, 0x9D#8, 0x23#8, 0x46#8, 0x8C#8]

/-- With x = seed xor data and y = checksum8(seed, data), each bit of y is the exclusive or of the bits
of x that R63 item 5 lists.
(40_checksum.md R63 item 5) -/
def Obligations.ChecksumBitEquations : Prop :=
  ∀ seed data x y : Byte, x = seed ^^^ data → y = checksum8 seed data →
    y.getLsbD 0 = (x.getLsbD 2 ^^ x.getLsbD 4 ^^ x.getLsbD 5) ∧
    y.getLsbD 1 = (x.getLsbD 0 ^^ x.getLsbD 3 ^^ x.getLsbD 5 ^^ x.getLsbD 6) ∧
    y.getLsbD 2 = (x.getLsbD 0 ^^ x.getLsbD 1 ^^ x.getLsbD 4 ^^ x.getLsbD 6 ^^ x.getLsbD 7) ∧
    y.getLsbD 3 = (x.getLsbD 0 ^^ x.getLsbD 1 ^^ x.getLsbD 4 ^^ x.getLsbD 7) ∧
    y.getLsbD 4 = (x.getLsbD 0 ^^ x.getLsbD 1 ^^ x.getLsbD 4) ∧
    y.getLsbD 5 = (x.getLsbD 1 ^^ x.getLsbD 2 ^^ x.getLsbD 5) ∧
    y.getLsbD 6 = (x.getLsbD 0 ^^ x.getLsbD 2 ^^ x.getLsbD 3 ^^ x.getLsbD 6) ∧
    y.getLsbD 7 = (x.getLsbD 1 ^^ x.getLsbD 3 ^^ x.getLsbD 4 ^^ x.getLsbD 7)

/-- For every byte sequence p and byte k: the fold of p followed by k is zero if and only if k is the
fold of p.
(40_checksum.md R61, 40_checksum.md R62) -/
def Obligations.ChecksumByteIsUnique : Prop :=
  ∀ (p : List Byte) (k : Byte), checksumFrame (p ++ [k]) = 0x00#8 ↔ k = checksumFrame p

/-- If a sequence folds to zero and a pattern of the same length is exclusive-ored into it, the result
folds to the fold of the pattern; and a pattern with exactly one bit set never folds to zero.
(40_checksum.md R66) -/
def Obligations.DamageIsFoldedAlone : Prop :=
  (∀ f e : List Byte, e.length = f.length → checksumFrame f = 0x00#8 →
    checksumFrame (List.zipWith (· ^^^ ·) f e) = checksumFrame e) ∧
  ∀ (m n : Nat) (k : Fin 8),
    checksumFrame (List.replicate m 0x00#8 ++ [1#8 <<< k.val] ++ List.replicate n 0x00#8) ≠ 0x00#8

/-- For one DeviceId, different seeds below 6 give different bytes; for one seed, different DeviceIds
give different bytes.
(40_checksum.md R65, 93_implementation_defined.md U13) -/
def Obligations.PseudoIdentityBytesDiffer : Prop :=
  (∀ (d : Byte) (x y : Fin 6), x ≠ y → pid (BitVec.ofNat 8 x.val) d ≠ pid (BitVec.ofNat 8 y.val) d) ∧
  ∀ x d d' : Byte, d ≠ d' → pid x d ≠ pid x d'

/-- From every state, whatever the ignored bits: RST answers the next state in which BUF is empty and
CNT, CRC, the seven record registers, RVLD, EV_REC, EV_DIS and DCAUSE are 0; the select input and
the rest of the stimulus are unchanged; RST in the reset state changes nothing; and in a state that
meets R22 only RST takes LOCK from 1 to 0.
(R71) -/
def Obligations.RstReachesResetState : Prop :=
  (∀ (v : BitVec 1) (d : Byte) (s : State),
    exec (.rst v d) s = .next
      { s with
        blk :=
          { buf := [], cnt := 0x00#8, crc := 0x00#8
            record :=
              { len := 0x00#8, devId := 0x00#8, interval := 0x00#8, verOff := 0x0000#16
                val1 := 0x0000#16, val2 := 0x0000#16, status := 0x00#8 }
            rvld := false, evRec := false, evDis := false, dcause := 0x0#4 } }) ∧
  (∀ (v : BitVec 1) (d : Byte), exec (.rst v d) State.reset = .next State.reset) ∧
  ∀ (i : Instr) (s t : State), s.Inv → s.blk.lock = true → exec i s = .next t → t.blk.lock = false →
    ∃ v d, i = .rst v d

/-- In the state after reset BUF is empty, CNT, CRC, every record register, RVLD, EV_REC, EV_DIS and
DCAUSE are 0, LOCK is 0, STAT and DBG read 0x0000 and PID0 to PID5 are 00 5E BC E2 61 3F.
(R23) -/
def Obligations.ResetStateIsR23 : Prop :=
  let b := State.reset.blk
  b.buf = [] ∧ b.cnt = 0x00#8 ∧ b.crc = 0x00#8 ∧
  b.record.len = 0x00#8 ∧ b.record.devId = 0x00#8 ∧ b.record.interval = 0x00#8 ∧
  b.record.status = 0x00#8 ∧
  b.record.verOff = 0x0000#16 ∧ b.record.val1 = 0x0000#16 ∧ b.record.val2 = 0x0000#16 ∧
  b.rvld = false ∧ b.evRec = false ∧ b.evDis = false ∧ b.dcause = 0x0#4 ∧
  b.lock = false ∧ b.stat = 0x0000#16 ∧ b.dbg = 0x0000#16 ∧
  [0#8, 1#8, 2#8, 3#8, 4#8, 5#8].map (fun x => pid x b.record.devId) =
    [0x00#8, 0x5E#8, 0xBC#8, 0xE2#8, 0x61#8, 0x3F#8]

/-- From every state, whatever the ignored bits: IDLE answers the next state in which EV_REC, EV_DIS and
DCAUSE are 0 and BUF, CNT, CRC, the record registers and RVLD, the select input and the rest of the
stimulus are as before.
(R72) -/
def Obligations.IdleClearsOnlyTheEventFlags : Prop :=
  ∀ (d : Byte) (s : State),
    exec (.idle d) s =
      .next { s with blk := { s.blk with evRec := false, evDis := false, dcause := 0x0#4 } }

/-- Two control words with rst = 1 have the same effect on every state, and so have two control words
with rst = 0 and in_valid = 0, whatever their other bits.
(R56) -/
def Obligations.IgnoredControlBitsHaveNoEffect : Prop :=
  (∀ (v v' : BitVec 1) (d d' : Byte) (s : State), exec (.rst v d) s = exec (.rst v' d') s) ∧
  ∀ (d d' : Byte) (s : State), exec (.idle d) s = exec (.idle d') s

/-- In every state that meets the invariants of R22, PUSH of any byte answers a next state, with the
select input and the rest of the stimulus unchanged: it is never refused and never faults.
(41_accumulator.md R70, 41_accumulator.md R73, 60_exceptions.md R110) -/
def Obligations.PushCompletes : Prop :=
  ∀ (x : Byte) (s : State), s.Inv →
    ∃ t, exec (.push x) s = .next t ∧ t.fsel = s.fsel ∧ t.pending = s.pending

/-- When CNT is 255, PUSH answers the next state in which only EV_REC, EV_DIS and DCAUSE are written, to
0: BUF, CNT, CRC, the record registers and RVLD do not change. In a state that meets R22, CNT = 255
only in lock-up.
(R80) -/
def Obligations.PushAtSaturationDropsTheByte : Prop :=
  (∀ (x : Byte) (s : State), s.blk.cnt = 255#8 →
    exec (.push x) s =
      .next { s with blk := { s.blk with evRec := false, evDis := false, dcause := 0x0#4 } }) ∧
  ∀ s : State, s.Inv → s.blk.cnt = 255#8 → s.blk.lock = true

/-- In a state that meets R22 with CNT below 255, a PUSH that ends no chunk answers the next state in
which the cell at the old CNT holds the byte, every other cell is as before, CRC is checksum8(old
CRC, byte), CNT is one more, the record registers and RVLD are unchanged and no event is shown;
select input and stimulus unchanged.
(R74) -/
def Obligations.PushAppends : Prop :=
  ∀ (x : Byte) (s : State), s.Inv → s.blk.cnt ≠ 255#8 → s.blk.endsNoChunk x →
    ∃ t, exec (.push x) s = .next t ∧
      t.blk.cell s.blk.cnt.toNat = some x ∧
      (∀ a, a ≠ s.blk.cnt.toNat → t.blk.cell a = s.blk.cell a) ∧
      t.blk.crc = checksum8 s.blk.crc x ∧ t.blk.cnt.toNat = s.blk.cnt.toNat + 1 ∧
      t.blk.record = s.blk.record ∧ t.blk.rvld = s.blk.rvld ∧
      t.blk.evRec = false ∧ t.blk.evDis = false ∧ t.blk.dcause = 0x0#4 ∧
      t.fsel = s.fsel ∧ t.pending = s.pending

/-- In a state that meets R22, a PUSH that ends a chunk with Sync1 0xCC, Sync2 0x55, a declared length
of at least 13 and a zero fold answers the next state in which the seven record registers hold the
bytes at offsets 2, 3, 4, the big-endian pairs at 5, 7, 9, and the byte at 11; RVLD and EV_REC are
1, EV_DIS and DCAUSE are 0, BUF is empty (no cell holds a value), CNT and CRC are 0; select input
and stimulus unchanged.
(R118, R90) -/
def Obligations.PushEmits : Prop :=
  ∀ (x len : Byte) (s : State), s.Inv → s.blk.endsChunk x len →
    s.blk.cell 0 = some 0xCC#8 → s.blk.cell 1 = some 0x55#8 → 13#8 ≤ len →
    checksum8 s.blk.crc x = 0x00#8 →
    ∃ t, exec (.push x) s = .next t ∧
      s.blk.cell 2 = some t.blk.record.len ∧ s.blk.cell 3 = some t.blk.record.devId ∧
      s.blk.cell 4 = some t.blk.record.interval ∧
      (∃ hi lo, s.blk.cell 5 = some hi ∧ s.blk.cell 6 = some lo ∧ t.blk.record.verOff = hi ++ lo) ∧
      (∃ hi lo, s.blk.cell 7 = some hi ∧ s.blk.cell 8 = some lo ∧ t.blk.record.val1 = hi ++ lo) ∧
      (∃ hi lo, s.blk.cell 9 = some hi ∧ s.blk.cell 10 = some lo ∧ t.blk.record.val2 = hi ++ lo) ∧
      s.blk.cell 11 = some t.blk.record.status ∧
      t.blk.rvld = true ∧ t.blk.evRec = true ∧ t.blk.evDis = false ∧ t.blk.dcause = 0x0#4 ∧
      t.blk.buf = [] ∧ t.blk.cnt = 0x00#8 ∧ t.blk.crc = 0x00#8 ∧ (∀ a, t.blk.cell a = none) ∧
      t.fsel = s.fsel ∧ t.pending = s.pending

/-- In a state that meets R22, a PUSH that ends a chunk whose first byte is not 0xCC, or whose second is
not 0x55, or whose fold is not zero, or whose declared length is below 13 answers the next state in
which EV_DIS is 1, EV_REC is 0, each DCAUSE bit says whether its own condition failed, BUF is empty,
CNT and CRC are 0, and the record registers, RVLD, the select input and the stimulus are unchanged.
(R117) -/
def Obligations.PushDiscards : Prop :=
  ∀ (x len b0 b1 : Byte) (s : State), s.Inv → s.blk.endsChunk x len →
    s.blk.cell 0 = some b0 → s.blk.cell 1 = some b1 →
    (b0 ≠ 0xCC#8 ∨ b1 ≠ 0x55#8 ∨ checksum8 s.blk.crc x ≠ 0x00#8 ∨ len < 13#8) →
    ∃ t, exec (.push x) s = .next t ∧
      t.blk.evDis = true ∧ t.blk.evRec = false ∧
      (t.blk.dcause.getLsbD 0 = true ↔ b0 ≠ 0xCC#8) ∧
      (t.blk.dcause.getLsbD 1 = true ↔ b1 ≠ 0x55#8) ∧
      (t.blk.dcause.getLsbD 2 = true ↔ checksum8 s.blk.crc x ≠ 0x00#8) ∧
      (t.blk.dcause.getLsbD 3 = true ↔ len < 13#8) ∧
      t.blk.buf = [] ∧ t.blk.cnt = 0x00#8 ∧ t.blk.crc = 0x00#8 ∧ (∀ a, t.blk.cell a = none) ∧
      t.blk.record = s.blk.record ∧ t.blk.rvld = s.blk.rvld ∧
      t.fsel = s.fsel ∧ t.pending = s.pending

/-- In a state that meets R22 with two bytes held, PUSH of the third byte L completes: L below 3 sets
LOCK with no event; L = 3 discards in that same step with SHORT set, and with CKSUM too after CC 55;
L above 3 goes on collecting, unlocked, with no event.
(30_encoding.md R54, 20_memory.md R43) -/
def Obligations.LengthByteDecidesTheChunk : Prop :=
  ∀ (x : Byte) (s : State), s.Inv → s.blk.cnt = 2#8 →
    ∃ t, exec (.push x) s = .next t ∧
      (x < 3#8 → t.blk.lock = true ∧ t.blk.evRec = false ∧ t.blk.evDis = false ∧ t.blk.cnt = 3#8) ∧
      (x = 3#8 → t.blk.evDis = true ∧ t.blk.evRec = false ∧ t.blk.dcause.getLsbD 3 = true ∧
        t.blk.cnt = 0#8 ∧
        (s.blk.cell 0 = some 0xCC#8 → s.blk.cell 1 = some 0x55#8 → t.blk.dcause = 0xC#4)) ∧
      (3#8 < x → t.blk.lock = false ∧ t.blk.evRec = false ∧ t.blk.evDis = false ∧ t.blk.cnt = 3#8)

/-- In a state that meets R22, a PUSH that ends a chunk of declared length L gives exactly one event: an
emit if and only if Sync1, Sync2 and the zero fold hold and L is at least 13, otherwise a discard;
so a chunk of 3 to 12 bytes is always discarded with SHORT set.
(30_encoding.md R54, 41_accumulator.md R84, 60_exceptions.md R116) -/
def Obligations.EndedChunkIsEmittedOrDiscarded : Prop :=
  ∀ (x len : Byte) (s t : State), s.Inv → s.blk.endsChunk x len → exec (.push x) s = .next t →
    (t.blk.evRec = true ↔ s.blk.cell 0 = some 0xCC#8 ∧ s.blk.cell 1 = some 0x55#8 ∧
      checksum8 s.blk.crc x = 0x00#8 ∧ 13#8 ≤ len) ∧
    t.blk.evDis = !t.blk.evRec ∧
    (len < 13#8 → t.blk.evDis = true ∧ t.blk.dcause.getLsbD 3 = true)

/-- Whenever PUSH answers a next state, CNT is one more than before, or it is 0 and an event is shown,
or it was and stays 255: it never wraps.
(10_state.md R12, 41_accumulator.md R81) -/
def Obligations.CounterMoves : Prop :=
  ∀ (x : Byte) (s t : State), exec (.push x) s = .next t →
    (s.blk.cnt ≠ 255#8 ∧ t.blk.cnt.toNat = s.blk.cnt.toNat + 1 ∧
      t.blk.evRec = false ∧ t.blk.evDis = false) ∨
    (s.blk.cnt ≠ 255#8 ∧ t.blk.cnt = 0#8 ∧ (t.blk.evRec = true ∨ t.blk.evDis = true)) ∨
    (s.blk.cnt = 255#8 ∧ t.blk.cnt = 255#8 ∧ t.blk.evRec = false ∧ t.blk.evDis = false)

/-- From every state, whatever its flags: after RST or IDLE, EV_REC, EV_DIS and DCAUSE are 0; after a
PUSH, EV_REC and EV_DIS are not both 1, DCAUSE is non-zero exactly when EV_DIS is 1, and an event
leaves CNT = 0.
(10_state.md R17, 60_exceptions.md R116) -/
def Obligations.EventFlagsAreWrittenEveryStep : Prop :=
  ∀ (w : ControlWord) (s t : State), exec (decodeControl w) s = .next t →
    ¬(t.blk.evRec = true ∧ t.blk.evDis = true) ∧
    (t.blk.dcause ≠ 0x0#4 ↔ t.blk.evDis = true) ∧
    (t.blk.evRec = true ∨ t.blk.evDis = true → isPushWord w = true ∧ t.blk.cnt = 0#8)

/-- From a state that meets R22 and shows an emit or a discard, whatever control word comes next: if its
operation answers a next state, no event is shown there, and DCAUSE is 0.
(60_exceptions.md R114, 60_exceptions.md R115, 10_state.md R17) -/
def Obligations.EventsLastOneStep : Prop :=
  ∀ (w : ControlWord) (s t : State), s.Inv → (s.blk.evRec = true ∨ s.blk.evDis = true) →
    exec (decodeControl w) s = .next t →
    t.blk.evRec = false ∧ t.blk.evDis = false ∧ t.blk.dcause = 0x0#4

/-- Over all instructions: when one answers a next state, the record registers are unchanged unless it
is RST, or a PUSH or the step of a frame item that emits (EV_REC is then 1); and a PUSH that
discards leaves them and RVLD alone.
(10_state.md R15, 41_accumulator.md R78, 42_extract_mux.md R109) -/
def Obligations.RecordWrittenOnlyByEmitOrReset : Prop :=
  ∀ (i : Instr) (s t : State), exec i s = .next t →
    (t.blk.record ≠ s.blk.record →
      (∃ v d, i = .rst v d) ∨ (∃ x, i = .push x ∧ t.blk.evRec = true) ∨
      (i.port = .stream ∧ t.blk.evRec = true)) ∧
    (∀ x, i = .push x → t.blk.evDis = true →
      t.blk.record = s.blk.record ∧ t.blk.rvld = s.blk.rvld)

/-- RVLD is 0 in the reset state; when any instruction answers a next state, RVLD stays 1 unless the
instruction is RST; a PUSH that emits leaves it 1, and one that does not emit leaves it as it was;
and in a state that meets R22 with RVLD = 0 all record registers are 0.
(R16) -/
def Obligations.RvldIsSticky : Prop :=
  State.reset.blk.rvld = false ∧
  (∀ (i : Instr) (s t : State), exec i s = .next t →
    (s.blk.rvld = true → t.blk.rvld = true ∨ ∃ v d, i = .rst v d) ∧
    (∀ x, i = .push x → t.blk.evRec = true → t.blk.rvld = true) ∧
    (∀ x, i = .push x → t.blk.evRec = false → t.blk.rvld = s.blk.rvld) ∧
    (∀ v d, i = .rst v d → t.blk.rvld = false)) ∧
  ∀ s : State, s.Inv → s.blk.rvld = false → s.blk.record = Record.zero

/-- LOCK is 0 while CNT is below 3; with CNT at least 3 and a byte at offset 2 it is 1 exactly when that
byte is below 3; and from a state that meets R22 with LOCK = 1, every instruction that answers a
next state leaves LOCK = 1 with no event shown, unless it is RST.
(R18) -/
def Obligations.LockEndsOnlyByReset : Prop :=
  (∀ s : State, s.blk.cnt < 3#8 → s.blk.lock = false) ∧
  (∀ (s : State) (len : Byte), 3#8 ≤ s.blk.cnt → s.blk.cell 2 = some len →
    (s.blk.lock = true ↔ len < 3#8)) ∧
  ∀ (i : Instr) (s t : State), s.Inv → s.blk.lock = true → exec i s = .next t →
    (t.blk.lock = true ∧ t.blk.evRec = false ∧ t.blk.evDis = false) ∨ ∃ v d, i = .rst v d

/-- From a block that meets R22 with LOCK = 1, every sequence of control words without RST runs to its
end with no event at all, LOCK still 1, and the record registers and RVLD unchanged.
(41_accumulator.md R86, 70_reset_and_hazards.md R136) -/
def Obligations.LockUpIsForEver : Prop :=
  ∀ (ws : List ControlWord) (b : Block), b.Inv → b.lock = true → (∀ w ∈ ws, isRstWord w = false) →
    ∃ b', b.feed ws = some ([], b') ∧ b'.lock = true ∧ b'.record = b.record ∧ b'.rvld = b.rvld

/-- All seven invariants of R22 hold of the state after reset.
(10_state.md R22, 10_state.md R23) -/
def Obligations.ResetMeetsTheInvariants : Prop :=
  State.reset.Inv

/-- From every state that meets R22, reachable or not, whatever the next stimulus word (control word,
read, whole frame): if the step answers a next state, that state meets R22.
(10_state.md R22) -/
def Obligations.StepKeepsTheInvariants : Prop :=
  ∀ s t : State, s.Inv → step s = .next t → t.Inv

/-- For every stimulus and every number of steps: if the run from the reset state with that stimulus
answers a next state, the state meets all seven invariants of R22.
(R22) -/
def Obligations.ReachableStatesMeetTheInvariants : Prop :=
  ∀ (ws : List StimulusWord) (n : Nat) (t : State),
    Sys2Proof.core.run n (State.reset.withStimulus ws) = .next t → State.Inv t

/-- From every state that meets R22 a step never faults; and if its next stimulus word is a control
word, a select code, or missing, the step answers a next state. (That a byte list that is no frame
may be refused is the model's choice, notes/assumptions/9.md. A missing word is taken as IDLE:
notes/assumptions/1.md, the model's choice.)
(60_exceptions.md R110, 41_accumulator.md R70) -/
def Obligations.NothingEscapes : Prop :=
  ∀ s : State, s.Inv →
    (∀ r, step s ≠ .fault r) ∧
    ((∀ bytes, s.pending.head? ≠ some (.stream bytes)) → ∃ t, step s = .next t)

/-- From every state whose buffer lists rising offsets below 255, invariants or not: if a step answers a
next state, its buffer does too, so no cell ever appears at offset 255 or above.
(10_state.md R11, 20_memory.md R30, 20_memory.md R40) -/
def Obligations.StepKeepsMemoryCanonical : Prop :=
  ∀ s t : State, s.blk.buf.wf → step s = .next t → t.blk.buf.wf

/-- The select codes 02, 03, 04, 05, 07, 09 and 0B decode to RD.LEN, RD.DEVID, RD.INTERVAL, RD.VEROFF,
RD.VAL1, RD.VAL2 and RD.STATUS; from every state each of RD.LEN, RD.DEVID, RD.INTERVAL, RD.VEROFF,
RD.VAL1, RD.VAL2 and RD.STATUS completes, shows its register on fdata, 8-bit ones zero-extended, and
changes no state of the block; in a state that meets R22, RD.LEN reads 0x0000 while RVLD = 0, else
0x000D to 0x00FF, and RD.DEVID reads 0x0000 while RVLD = 0.
(R92, R93, R94, R95, R96, R97, R98) -/
def Obligations.ReadsOfTheRecordWords : Prop :=
  [0x02#5, 0x03#5, 0x04#5, 0x05#5, 0x07#5, 0x09#5, 0x0B#5].map (fun c => decode (.select c)) =
    [Instr.rdLen, .rdDevId, .rdInterval, .rdVerOff, .rdVal1, .rdVal2, .rdStatus].map Except.ok ∧
  ∀ s : State,
    Shows .rdLen s (s.blk.record.len.zeroExtend 16) ∧
    Shows .rdDevId s (s.blk.record.devId.zeroExtend 16) ∧
    Shows .rdInterval s (s.blk.record.interval.zeroExtend 16) ∧
    Shows .rdVerOff s s.blk.record.verOff ∧
    Shows .rdVal1 s s.blk.record.val1 ∧
    Shows .rdVal2 s s.blk.record.val2 ∧
    Shows .rdStatus s (s.blk.record.status.zeroExtend 16) ∧
    (s.Inv → s.blk.rvld = false → Shows .rdLen s 0x0000#16 ∧ Shows .rdDevId s 0x0000#16) ∧
    (s.Inv → s.blk.rvld = true → ∃ w, Shows .rdLen s w ∧ 0x000D#16 ≤ w ∧ w ≤ 0x00FF#16)

/-- The select codes 10 to 15 decode to RD.PID0 to RD.PID5; from every state each of RD.PID0 to RD.PID5
completes, shows checksum8(x, REC_DEVID) zero-extended for its x, and changes no state of the block;
in a state that meets R22 with RVLD = 0 they read 0x0000, 0x005E, 0x00BC, 0x00E2, 0x0061 and 0x003F.
(R99, R100, R101, R102, R103, R104) -/
def Obligations.ReadsOfThePseudoIdentity : Prop :=
  [0x10#5, 0x11#5, 0x12#5, 0x13#5, 0x14#5, 0x15#5].map (fun c => decode (.select c)) =
    [Instr.rdPid0, .rdPid1, .rdPid2, .rdPid3, .rdPid4, .rdPid5].map Except.ok ∧
  ∀ s : State,
    Shows .rdPid0 s ((checksum8 0x00#8 s.blk.record.devId).zeroExtend 16) ∧
    Shows .rdPid1 s ((checksum8 0x01#8 s.blk.record.devId).zeroExtend 16) ∧
    Shows .rdPid2 s ((checksum8 0x02#8 s.blk.record.devId).zeroExtend 16) ∧
    Shows .rdPid3 s ((checksum8 0x03#8 s.blk.record.devId).zeroExtend 16) ∧
    Shows .rdPid4 s ((checksum8 0x04#8 s.blk.record.devId).zeroExtend 16) ∧
    Shows .rdPid5 s ((checksum8 0x05#8 s.blk.record.devId).zeroExtend 16) ∧
    (s.Inv → s.blk.rvld = false →
      Shows .rdPid0 s 0x0000#16 ∧ Shows .rdPid1 s 0x005E#16 ∧ Shows .rdPid2 s 0x00BC#16 ∧
      Shows .rdPid3 s 0x00E2#16 ∧ Shows .rdPid4 s 0x0061#16 ∧ Shows .rdPid5 s 0x003F#16)

/-- Select code 18 decodes to RD.STAT; from every state RD.STAT completes, changes no state of the block
and shows the word whose bit 0 is RVLD, bit 1 LOCK, bit 2 EV_REC, bit 3 EV_DIS, bits 7:4 DCAUSE and
bits 15:8 zero; after reset that word is 0x0000.
(R19) -/
def Obligations.ReadOfStatus : Prop :=
  decode (.select 0x18#5) = .ok .rdStat ∧
  (∀ s : State, ∃ w : Half, Shows .rdStat s w ∧
    w.getLsbD 0 = s.blk.rvld ∧ w.getLsbD 1 = s.blk.lock ∧ w.getLsbD 2 = s.blk.evRec ∧
    w.getLsbD 3 = s.blk.evDis ∧ w.extractLsb' 4 4 = s.blk.dcause ∧ w.extractLsb' 8 8 = 0x00#8) ∧
  Shows .rdStat State.reset 0x0000#16

/-- In every state that a run from reset reaches, under any stimulus, RD.STAT completes and shows 0x0000
to 0x0003, 0x0005, or 0x00X8 or 0x00X9 with X from 1 to F.
(42_extract_mux.md R105, 10_state.md R22) -/
def Obligations.StatusValuesThatCanBeRead : Prop :=
  ∀ (ws : List StimulusWord) (n : Nat) (s : State),
    Sys2Proof.core.run n (State.reset.withStimulus ws) = .next s →
    ∃ w : Half, Shows .rdStat s w ∧
      (w ≤ 0x0003#16 ∨ w = 0x0005#16 ∨
        ∃ x : Nat, 1 ≤ x ∧ x ≤ 15 ∧ (w.toNat = 16 * x + 8 ∨ w.toNat = 16 * x + 9))

/-- Select code 19 decodes to RD.DBG; from every state RD.DBG completes, changes no state of the block
and shows CRC in bits 15:8 and CNT in bits 7:0; after reset, and in every state that meets R22 and
shows an event, it reads 0x0000; after the bytes CC 55 0D from reset it reads 0x9D03.
(R20, R106) -/
def Obligations.ReadOfDebug : Prop :=
  decode (.select 0x19#5) = .ok .rdDbg ∧
  (∀ s : State, ∃ w : Half, Shows .rdDbg s w ∧ w.extractLsb' 0 8 = s.blk.cnt ∧
    w.extractLsb' 8 8 = s.blk.crc) ∧
  Shows .rdDbg State.reset 0x0000#16 ∧
  (∀ s : State, s.Inv → s.blk.evRec = true ∨ s.blk.evDis = true → Shows .rdDbg s 0x0000#16) ∧
  ∃ t, Sys2Proof.core.run 3
      (State.reset.withStimulus (stimulus [.bytes [0xCC#8, 0x55#8, 0x0D#8]])) = .next t ∧
    Shows .rdDbg t 0x9D03#16

/-- From every state a read of each of the 17 reserved codes 00, 01, 06, 08, 0A, 0C to 0F, 16, 17, 1A to
1F completes, shows 0x0000 and changes no state of the block; and each of them is what its code
decodes to.
(R107, R55) -/
def Obligations.ReadsOfReservedCodes : Prop :=
  (∀ s : State, ∀ i ∈ [Instr.rdRsv00, .rdRsv01, .rdRsv06, .rdRsv08, .rdRsv0A, .rdRsv0C, .rdRsv0D, .rdRsv0E,
      .rdRsv0F, .rdRsv16, .rdRsv17, .rdRsv1A, .rdRsv1B, .rdRsv1C, .rdRsv1D, .rdRsv1E, .rdRsv1F],
    Shows i s 0x0000#16) ∧
  [0x00#5, 0x01#5, 0x06#5, 0x08#5, 0x0A#5, 0x0C#5, 0x0D#5, 0x0E#5, 0x0F#5, 0x16#5, 0x17#5, 0x1A#5, 0x1B#5,
      0x1C#5, 0x1D#5, 0x1E#5, 0x1F#5].map decodeSelect =
    [Instr.rdRsv00, .rdRsv01, .rdRsv06, .rdRsv08, .rdRsv0A, .rdRsv0C, .rdRsv0D, .rdRsv0E, .rdRsv0F, .rdRsv16,
      .rdRsv17, .rdRsv1A, .rdRsv1B, .rdRsv1C, .rdRsv1D, .rdRsv1E, .rdRsv1F]

/-- In every state the word on fdata is, for each of the 32 codes the consumer can hold on fsel, the
word of R51's table: the record field that begins at that offset, the pseudo-identity byte, STAT,
DBG, or 0x0000 for every other code.
(R51) -/
def Obligations.MuxMap : Prop :=
  ∀ s : State, s.fdata = match s.fsel.toNat with
    | 0x02 => s.blk.record.len.zeroExtend 16
    | 0x03 => s.blk.record.devId.zeroExtend 16
    | 0x04 => s.blk.record.interval.zeroExtend 16
    | 0x05 => s.blk.record.verOff
    | 0x07 => s.blk.record.val1
    | 0x09 => s.blk.record.val2
    | 0x0B => s.blk.record.status.zeroExtend 16
    | 0x10 => (checksum8 0x00#8 s.blk.record.devId).zeroExtend 16
    | 0x11 => (checksum8 0x01#8 s.blk.record.devId).zeroExtend 16
    | 0x12 => (checksum8 0x02#8 s.blk.record.devId).zeroExtend 16
    | 0x13 => (checksum8 0x03#8 s.blk.record.devId).zeroExtend 16
    | 0x14 => (checksum8 0x04#8 s.blk.record.devId).zeroExtend 16
    | 0x15 => (checksum8 0x05#8 s.blk.record.devId).zeroExtend 16
    | 0x18 => s.blk.stat
    | 0x19 => s.blk.dbg
    | _ => 0x0000#16

/-- Over all instructions and states: changing only the code on fsel before an instruction changes
neither whether it answers a next state nor the block and stimulus it leaves.
(20_memory.md R38, 60_exceptions.md R113) -/
def Obligations.SelectInputHasNoEffectOnState : Prop :=
  ∀ (i : Instr) (c : SelCode) (s t : State), exec i s = .next t →
    ∃ t', exec i { s with fsel := c } = .next t' ∧ t'.blk = t.blk ∧ t'.pending = t.pending

/-- In every state ev_rec, ev_dis and dcause are EV_REC, EV_DIS and DCAUSE, lock is LOCK and fdata the
word selected by fsel, so two states with the same block and the same fsel show the same outputs
whatever stimulus is to come.
(10_state.md R25, 10_state.md R21) -/
def Obligations.OutputsFollowTheState : Prop :=
  (∀ s : State, s.outputs.evRec = s.blk.evRec ∧ s.outputs.evDis = s.blk.evDis ∧
    s.outputs.dcause = s.blk.dcause ∧ s.outputs.lock = s.blk.lock ∧ s.outputs.fdata = s.fdata) ∧
  ∀ s s' : State, s.blk = s'.blk → s.fsel = s'.fsel → s.outputs = s'.outputs

/-- In every state that meets R22, the frame instruction with any operands, any reserved bytes and any
checksum byte answers a next state that meets R22: the state PUSH of its first byte 0xCC answers,
but that the PUSH words of its other bytes, in order, now stand at the head of the stimulus; the
select input is unchanged. (That a frame's later bytes wait as PUSH words in the stimulus is how the
model holds R59's expansion: notes/assumptions/3.md.)
(30_encoding.md R45, 30_encoding.md R59, 41_accumulator.md R70, 70_reset_and_hazards.md R143) -/
def Obligations.FrameCompletes : Prop :=
  ∀ (devId interval : Byte) (verOff val1 val2 : Half) (status : Byte) (reserved : List Byte)
    (k : Byte) (s : State), s.Inv →
    ∃ t, exec (.frame13 devId interval verOff val1 val2 status reserved k) s = .next t ∧
      t.Inv ∧ t.fsel = s.fsel ∧
      t.pending = pushWords (frameBytes devId interval verOff val1 val2 status reserved k).tail ++ s.pending ∧
      exec (.push 0xCC#8) s = .next { t with pending := s.pending }

/-- For every state and operands: the outcome of the frame instruction is that of the step taken with
the PUSH words of its bytes, in order, at the head of the stimulus; and for a frame that fits its
Length, a run of any number of steps, one or more, with the frame's word at the head of the stimulus
has the outcome of that run with those PUSH words in its place, so every state between two bytes is
the same. (That a frame is one item of a stimulus and its later bytes wait as PUSH words there is
how the model holds R59's expansion: notes/assumptions/3.md.)
(30_encoding.md R59, 20_memory.md R31, 30_encoding.md R45, 70_reset_and_hazards.md R143) -/
def Obligations.FrameIsItsPushes : Prop :=
  (∀ (devId interval : Byte) (verOff val1 val2 : Half) (status : Byte) (reserved : List Byte)
    (k : Byte) (s : State),
    exec (.frame13 devId interval verOff val1 val2 status reserved k) s =
      step (s.withStimulus
        (pushWords (frameBytes devId interval verOff val1 val2 status reserved k) ++ s.pending))) ∧
  ∀ (devId interval : Byte) (verOff val1 val2 : Half) (status : Byte) (reserved : List Byte)
    (k : Byte) (s : State) (n : Nat), 13 + reserved.length ≤ 255 →
    Sys2Proof.core.run (n + 1) (s.withStimulus
        (encode (.frame13 devId interval verOff val1 val2 status reserved k) :: s.pending)) =
      Sys2Proof.core.run (n + 1) (s.withStimulus
        (pushWords (frameBytes devId interval verOff val1 val2 status reserved k) ++ s.pending))

/-- From every state whose block is at offset 0 (BUF empty, CNT and CRC 0), for every field value and
every number of reserved bytes that fits: the frame with the fold of its prefix as checksum byte
answers a next state, and as many steps on as it has bytes left the machine is in the state in which
the record registers hold exactly its length and fields, RVLD and EV_REC are 1, EV_DIS and DCAUSE 0,
and everything else, BUF, CNT, CRC, select input and stimulus, is as before: empty and 0. (Later
bytes wait as PUSH words in the stimulus: notes/assumptions/3.md.)
(41_accumulator.md R83, 41_accumulator.md R77, 42_extract_mux.md R90, 40_checksum.md R62,
95_test_vectors.md W3) -/
def Obligations.GoodFrameIsEmittedWithItsFields : Prop :=
  ∀ (devId interval : Byte) (verOff val1 val2 : Half) (status : Byte) (reserved : List Byte)
    (s : State), s.blk.AtOffset0 → 13 + reserved.length ≤ 255 →
    ∃ t, exec (.frame13 devId interval verOff val1 val2 status reserved
        (checksumFrame (framePrefix devId interval verOff val1 val2 status reserved))) s = .next t ∧
      Sys2Proof.core.run (12 + reserved.length) t =
        .next
          { s with
            blk :=
              { buf := [], cnt := 0#8, crc := 0x00#8
                record :=
                  { len := BitVec.ofNat 8 (13 + reserved.length), devId := devId, interval := interval
                    verOff := verOff, val1 := val1, val2 := val2, status := status }
                rvld := true, evRec := true, evDis := false, dcause := 0x0#4 } }

/-- From every state whose block is at offset 0, for every field value and reserved bytes that fit and
every checksum byte other than the fold of the prefix: the frame instruction answers a next state,
and as many steps on as it has bytes left the machine is in the state in which EV_DIS is 1 and
DCAUSE is 0x4, EV_REC is 0, and the record registers, RVLD, BUF, CNT, CRC, select input and stimulus
are as before. (Later bytes wait as PUSH words in the stimulus: notes/assumptions/3.md.)
(41_accumulator.md R76, 41_accumulator.md R78, 60_exceptions.md R117, 40_checksum.md R62) -/
def Obligations.BadChecksumFrameIsDiscarded : Prop :=
  ∀ (devId interval : Byte) (verOff val1 val2 : Half) (status : Byte) (reserved : List Byte)
    (k : Byte) (s : State), s.blk.AtOffset0 → 13 + reserved.length ≤ 255 →
    k ≠ checksumFrame (framePrefix devId interval verOff val1 val2 status reserved) →
    ∃ t, exec (.frame13 devId interval verOff val1 val2 status reserved k) s = .next t ∧
      Sys2Proof.core.run (12 + reserved.length) t =
        .next { s with blk := { s.blk with evRec := false, evDis := true, dcause := 0x4#4 } }

/-- From every block at offset 0, for every good 13-byte frame and every single flipped bit in any byte
but the one at offset 2: pushing the damaged bytes completes with a discard whose cause is CKSUM
plus SYNC1 or SYNC2 when the flipped byte is that sync byte, no emit, and the record registers and
RVLD unchanged.
(40_checksum.md R66, 41_accumulator.md R84, 95_test_vectors.md W4) -/
def Obligations.SingleBitDamageIsDiscarded : Prop :=
  ∀ (devId interval : Byte) (verOff val1 val2 : Half) (status : Byte) (b : Block) (j : Fin 13)
    (bit : Fin 8), b.AtOffset0 → j ≠ 2 →
    ∃ b', b.pushAll
        ((frameBytes devId interval verOff val1 val2 status []
            (checksumFrame (framePrefix devId interval verOff val1 val2 status []))).modify j.val
          (fun x => x ^^^ (1#8 <<< bit.val))) = some b' ∧
      b'.evDis = true ∧ b'.evRec = false ∧
      b'.dcause = (if j = 0 then 0x5#4 else if j = 1 then 0x6#4 else 0x4#4) ∧
      b'.record = b.record ∧ b'.rvld = b.rvld ∧ b'.AtOffset0

/-- For every byte sequence pushed from the reset state, one PUSH a byte, the run completes and its
events, emitted records and discard causes in order, are exactly those of the chunks R83 describes:
each chunk as long as its third byte says, emitted if its sync bytes, length and fold are good,
discarded otherwise, and none after a third byte below 3.
(41_accumulator.md R83, 41_accumulator.md R84, 30_encoding.md R52) -/
def Obligations.AccumulatorCutsChunks : Prop :=
  ∀ bytes : List Byte,
    ∃ b, Block.feed (bytes.map pushWord) Block.reset = some (chunkEvents bytes.length bytes, b)

/-- For every block and every sequence of control words: leaving out its IDLE words gives the same
events in the same order, and the same block at the end but for the event flags that last one step.
(20_memory.md R41 item 1, 41_accumulator.md R72, 95_test_vectors.md W1) -/
def Obligations.IdleStepsChangeNoEvent : Prop :=
  ∀ (ws : List ControlWord) (b : Block),
    (b.feed ws).map (fun p => (p.1, p.2.noEvent)) =
      (b.feed (ws.filter fun w => !isIdleWord w)).map (fun p => (p.1, p.2.noEvent))

/-- For every block at offset 0 and every sequence of control words without RST that runs to its end:
three times the number of events is at most the number of PUSH words, and thirteen times the number
of emits is too.
(41_accumulator.md R85) -/
def Obligations.EventsAreSpaced : Prop :=
  ∀ (ws : List ControlWord) (b b' : Block) (es : List Event), b.AtOffset0 →
    (∀ w ∈ ws, isRstWord w = false) → b.feed ws = some (es, b') →
    3 * es.length ≤ (ws.filter isPushWord).length ∧
    13 * (es.filter Event.isEmit).length ≤ (ws.filter isPushWord).length

/-- Two blocks at offset 0, whatever records, RVLD and event flags they hold, give the same events on
every sequence of control words, and one runs to the end if and only if the other does.
(20_memory.md R44, 41_accumulator.md R79, 60_exceptions.md R119) -/
def Obligations.NoAliasingAcrossAFrameBoundary : Prop :=
  ∀ (ws : List ControlWord) (b c : Block), b.AtOffset0 → c.AtOffset0 →
    (b.feed ws).map Prod.fst = (c.feed ws).map Prod.fst

/-- When the next stimulus word decodes to an instruction, the step is exec of that instruction on the
state with that word taken off the stimulus; when it decodes to none (a byte list that is no frame)
the step is refused with the decoder's reason; with no word left the step is that of the IDLE word
0x000. (Both last clauses are the model's choice and no rule of the spec, by which no step operation
can be refused: the refusal of a byte list that is no frame, notes/assumptions/9.md, and the IDLE
word, notes/assumptions/1.md.)
(00_scope.md R7, 00_scope.md R8, 30_encoding.md R58) -/
def Obligations.StepRunsTheDecodedInstruction : Prop :=
  (∀ (s : State) (x : StimulusWord) (rest : List StimulusWord) (i : Instr), s.pending = x :: rest →
    decode x = .ok i → step s = exec i { s with pending := rest }) ∧
  (∀ (s : State) (x : StimulusWord) (rest : List StimulusWord) (why : Reject), s.pending = x :: rest →
    decode x = .error why → step s = .refused (.undecodable why)) ∧
  ∀ s : State, s.pending = [] → step s = exec (.idle 0x00#8) s

/-- When the next stimulus word is a control word, the step is RST if bit 9 is 1, else PUSH of bits 7:0
if bit 8 is 1, else IDLE, on the state with that word taken off; and in a state that meets R22 it
answers a next state.
(R70) -/
def Obligations.ControlWordStep : Prop :=
  ∀ (s : State) (w : ControlWord) (rest : List StimulusWord), s.pending = .control w :: rest →
    (w.getLsbD 9 = true → ∃ v d, step s = exec (.rst v d) { s with pending := rest }) ∧
    (w.getLsbD 9 = false → w.getLsbD 8 = true →
      step s = exec (.push (w.extractLsb' 0 8)) { s with pending := rest }) ∧
    (w.getLsbD 9 = false → w.getLsbD 8 = false → ∃ d, step s = exec (.idle d) { s with pending := rest }) ∧
    step s = State.onBlock (Block.sample w) { s with pending := rest } ∧
    (s.Inv → ∃ t, step s = .next t)

/-- For every width and number: if the number decodes, as an opcode-table word of that width, to an
instruction, then placing it makes the very next step exec of that instruction on the state it was
placed in; otherwise that step is refused. (How a program comes to run is the model's choice,
notes/assumptions/4.md, and so is the refusal of what is no word of its port, notes/assumptions/4.md
and 9.md.)
(30_encoding.md R46, 30_encoding.md R47, 30_encoding.md R45) -/
def Obligations.FetchedTableWordRunsNext : Prop :=
  ∀ (s : State) (nbits w : Nat),
    (∀ i, decodeTableWord nbits w = some i → step (s.withFetchWord nbits w) = exec i s) ∧
    (decodeTableWord nbits w = none → ∃ why, step (s.withFetchWord nbits w) = .refused (.undecodable why))

/-- In every state that meets R22, for every frame: its instruction answers a next state, and for every
n below the number of its bytes, n steps on the block is that after the pushes of the frame's first
n + 1 bytes, with the select input unchanged and the PUSH words of the bytes left at the head of the
stimulus. (That they wait there is how the model holds R59's expansion: notes/assumptions/3.md.)
(70_reset_and_hazards.md R143, 20_memory.md R31, 30_encoding.md R59) -/
def Obligations.EachStepOfAFramePushesOneByte : Prop :=
  ∀ (devId interval : Byte) (verOff val1 val2 : Half) (status : Byte) (reserved : List Byte)
    (k : Byte) (s : State), s.Inv →
    ∃ t, exec (.frame13 devId interval verOff val1 val2 status reserved k) s = .next t ∧
      ∀ n : Nat, n < 13 + reserved.length →
        ∃ u : State, Sys2Proof.core.run n t = .next u ∧
          s.blk.pushAll ((frameBytes devId interval verOff val1 val2 status reserved k).take (n + 1)) = some u.blk ∧
          u.fsel = s.fsel ∧
          u.pending =
            pushWords ((frameBytes devId interval verOff val1 val2 status reserved k).drop (n + 1))
              ++ s.pending

/-- From every state whose block is at offset 0, for every frame that fits its Length, with any checksum
byte: its instruction answers a next state; for every n below the number of its bytes less one, n
steps on no event is shown, CNT is n + 1 and the record registers and RVLD are as before; and in the
state right after the step of the last byte exactly one of EV_REC and EV_DIS is 1, the record
registers already holding the frame's DeviceId if it is EV_REC. (Later bytes wait as PUSH words in
the stimulus: notes/assumptions/3.md.)
(70_reset_and_hazards.md R143, 70_reset_and_hazards.md R139, 41_accumulator.md R83) -/
def Obligations.EventIsShownRightAfterTheByteThatCausesIt : Prop :=
  ∀ (devId interval : Byte) (verOff val1 val2 : Half) (status : Byte) (reserved : List Byte)
    (k : Byte) (s : State), s.blk.AtOffset0 → 13 + reserved.length ≤ 255 →
    ∃ t, exec (.frame13 devId interval verOff val1 val2 status reserved k) s = .next t ∧
      (∀ n : Nat, n < 12 + reserved.length →
        ∃ u : State, Sys2Proof.core.run n t = .next u ∧
          u.blk.evRec = false ∧ u.blk.evDis = false ∧ u.blk.cnt.toNat = n + 1 ∧
          u.blk.record = s.blk.record ∧ u.blk.rvld = s.blk.rvld) ∧
      ∃ u : State, Sys2Proof.core.run (12 + reserved.length) t = .next u ∧
        u.blk.evDis = !u.blk.evRec ∧ (u.blk.evRec = true → u.blk.record.devId = devId)
end

