-- ==== Sys2Proof/Laws/Checksum.lean ====
section
/-! SUPPORT. The small lemmas of the checksum functions. -/

namespace Sys2Proof.Machine

@[simp] theorem checksumFrame_nil : checksumFrame [] = 0x00#8 := rfl

/-- Folding one byte more is one step of the `CRC` register (R61, R64). -/
theorem checksumFrame_concat (xs : List Byte) (x : Byte) :
    checksumFrame (xs ++ [x]) = checksum8 (checksumFrame xs) x := by
  simp [checksumFrame]

/-- Only the exclusive or of seed and data matters. -/
theorem checksum8_eq_xor (s d : Byte) : checksum8 s d = checksum8 0x00#8 (s ^^^ d) := by
  simp [checksum8]

end Sys2Proof.Machine
end

