-- ==== Sys2Proof/Laws/State.lean ====
section
/-! SUPPORT. One lemma per field and update of the state records, each true by rfl, so that no proof
unfolds a record update. -/

namespace Sys2Proof.Machine

@[simp] theorem Block.noEvent_buf (b : Block) : (b.noEvent).buf = b.buf := rfl
@[simp] theorem Block.noEvent_cnt (b : Block) : (b.noEvent).cnt = b.cnt := rfl
@[simp] theorem Block.noEvent_crc (b : Block) : (b.noEvent).crc = b.crc := rfl
@[simp] theorem Block.noEvent_record (b : Block) : (b.noEvent).record = b.record := rfl
@[simp] theorem Block.noEvent_rvld (b : Block) : (b.noEvent).rvld = b.rvld := rfl
@[simp] theorem Block.noEvent_evRec (b : Block) : (b.noEvent).evRec = false := rfl
@[simp] theorem Block.noEvent_evDis (b : Block) : (b.noEvent).evDis = false := rfl
@[simp] theorem Block.noEvent_dcause (b : Block) : (b.noEvent).dcause = 0x0#4 := rfl

@[simp] theorem Block.append_buf (b : Block) (x : Byte) : (b.append x).buf = b.buf.write b.cnt.toNat x := rfl
@[simp] theorem Block.append_cnt (b : Block) (x : Byte) : (b.append x).cnt = b.cnt + 1 := rfl
@[simp] theorem Block.append_crc (b : Block) (x : Byte) : (b.append x).crc = checksum8 b.crc x := rfl
@[simp] theorem Block.append_record (b : Block) (x : Byte) : (b.append x).record = b.record := rfl
@[simp] theorem Block.append_rvld (b : Block) (x : Byte) : (b.append x).rvld = b.rvld := rfl
@[simp] theorem Block.append_evRec (b : Block) (x : Byte) : (b.append x).evRec = b.evRec := rfl
@[simp] theorem Block.append_evDis (b : Block) (x : Byte) : (b.append x).evDis = b.evDis := rfl
@[simp] theorem Block.append_dcause (b : Block) (x : Byte) : (b.append x).dcause = b.dcause := rfl

@[simp] theorem Block.clear_buf (b : Block) : (b.clear).buf = [] := rfl
@[simp] theorem Block.clear_cnt (b : Block) : (b.clear).cnt = 0 := rfl
@[simp] theorem Block.clear_crc (b : Block) : (b.clear).crc = 0x00#8 := rfl
@[simp] theorem Block.clear_record (b : Block) : (b.clear).record = b.record := rfl
@[simp] theorem Block.clear_rvld (b : Block) : (b.clear).rvld = b.rvld := rfl
@[simp] theorem Block.clear_evRec (b : Block) : (b.clear).evRec = b.evRec := rfl
@[simp] theorem Block.clear_evDis (b : Block) : (b.clear).evDis = b.evDis := rfl
@[simp] theorem Block.clear_dcause (b : Block) : (b.clear).dcause = b.dcause := rfl

@[simp] theorem Block.discard_buf (b : Block) (c : CauseMask) : (b.discard c).buf = [] := rfl
@[simp] theorem Block.discard_cnt (b : Block) (c : CauseMask) : (b.discard c).cnt = 0 := rfl
@[simp] theorem Block.discard_crc (b : Block) (c : CauseMask) : (b.discard c).crc = 0x00#8 := rfl
@[simp] theorem Block.discard_record (b : Block) (c : CauseMask) : (b.discard c).record = b.record := rfl
@[simp] theorem Block.discard_rvld (b : Block) (c : CauseMask) : (b.discard c).rvld = b.rvld := rfl
@[simp] theorem Block.discard_evRec (b : Block) (c : CauseMask) : (b.discard c).evRec = false := rfl
@[simp] theorem Block.discard_evDis (b : Block) (c : CauseMask) : (b.discard c).evDis = true := rfl
@[simp] theorem Block.discard_dcause (b : Block) (c : CauseMask) : (b.discard c).dcause = c := rfl

@[simp] theorem Block.emit_buf (b : Block) (r : Record) : (b.emit r).buf = [] := rfl
@[simp] theorem Block.emit_cnt (b : Block) (r : Record) : (b.emit r).cnt = 0 := rfl
@[simp] theorem Block.emit_crc (b : Block) (r : Record) : (b.emit r).crc = 0x00#8 := rfl
@[simp] theorem Block.emit_record (b : Block) (r : Record) : (b.emit r).record = r := rfl
@[simp] theorem Block.emit_rvld (b : Block) (r : Record) : (b.emit r).rvld = true := rfl
@[simp] theorem Block.emit_evRec (b : Block) (r : Record) : (b.emit r).evRec = true := rfl
@[simp] theorem Block.emit_evDis (b : Block) (r : Record) : (b.emit r).evDis = false := rfl
@[simp] theorem Block.emit_dcause (b : Block) (r : Record) : (b.emit r).dcause = 0x0#4 := rfl

/-- RST reaches the reset state from any state (R71, R23). -/
@[simp] theorem Block.rst_eq_reset (b : Block) : b.rst = Block.reset := rfl

@[simp] theorem Block.idle_eq_noEvent (b : Block) : b.idle = b.noEvent := rfl

@[simp] theorem State.select_blk (s : State) (c : SelCode) : (s.select c).blk = s.blk := rfl
@[simp] theorem State.select_fsel (s : State) (c : SelCode) : (s.select c).fsel = c := rfl
@[simp] theorem State.select_pending (s : State) (c : SelCode) : (s.select c).pending = s.pending := rfl

@[simp] theorem State.offer_blk (s : State) (x : StimulusWord) : (s.offer x).blk = s.blk := rfl
@[simp] theorem State.offer_fsel (s : State) (x : StimulusWord) : (s.offer x).fsel = s.fsel := rfl
@[simp] theorem State.offer_pending (s : State) (x : StimulusWord) :
    (s.offer x).pending = x :: s.pending := rfl

@[simp] theorem State.offerAll_blk (s : State) (xs : List StimulusWord) :
    (s.offerAll xs).blk = s.blk := rfl
@[simp] theorem State.offerAll_fsel (s : State) (xs : List StimulusWord) :
    (s.offerAll xs).fsel = s.fsel := rfl
@[simp] theorem State.offerAll_pending (s : State) (xs : List StimulusWord) :
    (s.offerAll xs).pending = xs ++ s.pending := rfl
@[simp] theorem State.offerAll_nil (s : State) : s.offerAll [] = s := rfl
@[simp] theorem State.offerAll_cons (s : State) (x : StimulusWord) (xs : List StimulusWord) :
    s.offerAll (x :: xs) = (s.offerAll xs).offer x := rfl

@[simp] theorem pushWords_nil : pushWords [] = [] := rfl
@[simp] theorem pushWords_cons (x : Byte) (xs : List Byte) :
    pushWords (x :: xs) = encode (.push x) :: pushWords xs := rfl

/-- A word offered is the word fetched next, and fetching it restores the state. -/
@[simp] theorem State.fetch_offer (s : State) (x : StimulusWord) : (s.offer x).fetch = (x, s) := rfl

@[simp] theorem State.fetch_blk (s : State) : s.fetch.2.blk = s.blk := by
  cases h : s.pending <;> simp [State.fetch, h]

@[simp] theorem State.fetch_fsel (s : State) : s.fetch.2.fsel = s.fsel := by
  cases h : s.pending <;> simp [State.fetch, h]

end Sys2Proof.Machine
end

