-- ==== Sys2Proof/Laws/Memory.lean ====
section
/-! SUPPORT. The laws of the frame buffer: read after write, and that every operation on it keeps the
canonical form. -/

namespace Sys2Proof.Machine

@[simp] theorem Memory.read_nil (a : Nat) : Memory.read [] a = none := rfl

/-- A read where a byte was just written gives that byte. -/
@[simp] theorem Memory.read_write_same (m : Memory) (a : Nat) (v : Byte) :
    (m.write a v).read a = some v := by
  induction m with
  | nil => simp [Memory.write, Memory.read]
  | cons p m ih =>
    obtain ⟨k, x⟩ := p
    by_cases h₁ : a < k
    · simp [Memory.write, h₁, Memory.read]
    · by_cases h₂ : a = k
      · simp [Memory.write, h₂, Memory.read]
      · simp [Memory.write, h₁, h₂, Memory.read, Ne.symm h₂, ih]

/-- A write leaves every other cell alone. -/
theorem Memory.read_write_other (m : Memory) (a : Nat) (v : Byte) {k : Nat} (h : k ≠ a) :
    (m.write a v).read k = m.read k := by
  induction m with
  | nil => simp [Memory.write, Memory.read, h.symm]
  | cons p m ih =>
    obtain ⟨j, x⟩ := p
    by_cases h₁ : a < j
    · simp [Memory.write, h₁, Memory.read, h.symm]
    · by_cases h₂ : a = j
      · subst h₂; simp [Memory.write, Memory.read, h.symm]
      · simp only [Memory.write, h₁, h₂, if_false, Memory.read, ih]

theorem Memory.mem_write {m : Memory} {a : Nat} {v : Byte} {p : Host.Cell}
    (h : p ∈ m.write a v) : p = (a, v) ∨ p ∈ m := by
  induction m with
  | nil => simpa [Memory.write] using h
  | cons q m ih =>
    simp only [Memory.write] at h
    split at h
    · simpa using h
    · split at h
      · rcases List.mem_cons.1 h with h | h
        · exact .inl h
        · exact .inr (List.mem_cons_of_mem _ h)
      · rcases List.mem_cons.1 h with h | h
        · exact .inr (h ▸ List.mem_cons_self ..)
        · exact (ih h).imp id (List.mem_cons_of_mem _)

/-- The empty buffer is canonical: what RST and the clear leave. -/
theorem Memory.wf_nil : Memory.wf [] := by simp [Memory.wf]

/-- A write to one of the buffer's cells keeps the canonical form. -/
theorem Memory.write_wf {m : Memory} (hm : m.wf) {a : Nat} (ha : a < Config.bufCells) (v : Byte) :
    (m.write a v).wf := by
  refine ⟨?_, fun p hp => (Memory.mem_write hp).elim (fun h => h ▸ ha) (hm.2 p)⟩
  have hp := hm.1
  clear hm
  induction m with
  | nil => simp [Memory.write]
  | cons q m ih =>
    obtain ⟨k, x⟩ := q
    obtain ⟨hk, hm⟩ := List.pairwise_cons.1 hp
    simp only [Memory.write]
    split
    · rename_i h
      refine List.pairwise_cons.2 ⟨fun p hp' => ?_, hp⟩
      rcases List.mem_cons.1 hp' with rfl | hp'
      · exact h
      · exact h.trans (hk p hp')
    · split
      · rename_i h; subst h; exact List.pairwise_cons.2 ⟨hk, hm⟩
      · rename_i h₁ h₂
        refine List.pairwise_cons.2 ⟨fun p hp' => ?_, ih hm⟩
        rcases Memory.mem_write hp' with rfl | hp'
        · exact lt_of_le_of_ne (Nat.le_of_not_lt h₁) (Ne.symm h₂)
        · exact hk p hp'

/-- A write above every cell held appends its cell at the end. -/
theorem Memory.write_eq_append {m : Memory} {a : Nat} (h : ∀ p ∈ m, p.1 < a) (v : Byte) :
    m.write a v = m ++ [(a, v)] := by
  induction m with
  | nil => rfl
  | cons q m ih =>
    obtain ⟨k, x⟩ := q
    have hk : k < a := h (k, x) (List.mem_cons_self ..)
    have : ¬a < k ∧ ¬a = k := by omega
    simp [Memory.write, this, ih fun p hp => h p (List.mem_cons_of_mem _ hp)]

/-- A cell is read if and only if it is listed, in a canonical buffer. -/
theorem Memory.read_eq_some_iff {m : Memory} (hm : m.Pairwise fun p q => p.1 < q.1) {a : Nat}
    {v : Byte} : m.read a = some v ↔ (a, v) ∈ m := by
  induction m with
  | nil => simp
  | cons q m ih =>
    obtain ⟨k, x⟩ := q
    obtain ⟨hk, hm⟩ := List.pairwise_cons.1 hm
    by_cases h : k = a
    · subst h
      have : (k, v) ∉ m := fun h => absurd (hk (k, v) h) (lt_irrefl k)
      simp [Memory.read, this, eq_comm]
    · simp [Memory.read, h, ih hm, Ne.symm h]

end Sys2Proof.Machine
end

