-- ==== Sys2Proof/Laws/Ops.lean ====
section
/-! SUPPORT. For each shared operation, once, everything it can do; later proofs cite these lemmas and do
not unfold the operations. -/

namespace Sys2Proof.Machine

/-- A step operation on the block changes nothing outside the block. -/
theorem State.onBlock_eq_next_iff {f : Block → Option Block} {s t : State} :
    s.onBlock f = .next t ↔ ∃ b, f s.blk = some b ∧ t = { s with blk := b } := by
  unfold State.onBlock
  cases f s.blk <;> simp [eq_comm]

/-- It stops exactly when the operation would read a cell that holds no value. -/
theorem State.onBlock_eq_fault_iff {f : Block → Option Block} {s : State} {r : Fault} :
    s.onBlock f = .fault r ↔ f s.blk = none := by
  cases r
  unfold State.onBlock
  cases f s.blk <;> simp

/-- It is never a refusal. -/
theorem State.onBlock_ne_refused {f : Block → Option Block} {s : State} {r : Refusal} :
    s.onBlock f ≠ .refused r := by
  unfold State.onBlock
  cases f s.blk <;> simp

/-- The boundary signal answers false while fewer than three bytes are held, else it compares `CNT` with
the cell at offset 2 (R75). -/
theorem Block.boundary_eq_some_iff {b : Block} {fires : Bool} :
    b.boundary = some fires ↔
      (b.cnt < 3#8 ∧ fires = false) ∨
      (¬b.cnt < 3#8 ∧ ∃ len, b.cell 2 = some len ∧ fires = decide (b.cnt = len)) := by
  unfold Block.boundary
  split
  · next h => simp [h, eq_comm]
  · next h => cases b.cell 2 <;> simp [h, eq_comm]

/-- The validity check answers the mask of the first three cells and the fold (R76). -/
theorem Block.causes_eq_some_iff {b : Block} {c : CauseMask} :
    b.causes = some c ↔ ∃ b0 b1 len, b.cell 0 = some b0 ∧ b.cell 1 = some b1 ∧ b.cell 2 = some len ∧
      c = causeMask b0 b1 len b.crc := by
  unfold Block.causes
  cases b.cell 0 <;> cases b.cell 1 <;> cases b.cell 2 <;> simp [eq_comm]

/-- A mask is zero exactly when none of the four conditions holds (R76). -/
theorem causeMask_eq_zero_iff {b0 b1 len fold : Byte} :
    causeMask b0 b1 len fold = 0x0#4 ↔
      b0 = Wired.sync1 ∧ b1 = Wired.sync2 ∧ fold = 0x00#8 ∧ ¬len < Wired.minLen := by
  unfold causeMask
  by_cases h₀ : b0 = Wired.sync1 <;> by_cases h₁ : b1 = Wired.sync2 <;> by_cases h₂ : fold = 0x00#8 <;>
    by_cases h₃ : len < Wired.minLen <;> simp [h₀, h₁, h₂, h₃]

/-- A pair of cells is read when both hold a value, the lower offset on top (R48). -/
theorem Block.cellPair_eq_some_iff {b : Block} {k : Nat} {v : Half} :
    b.cellPair k = some v ↔ ∃ hi lo, b.cell k = some hi ∧ b.cell (k + 1) = some lo ∧ v = hi ++ lo := by
  unfold Block.cellPair
  cases b.cell k <;> cases b.cell (k + 1) <;> simp [eq_comm]

/-- The extractor answers the record of its seven operands (R90). -/
theorem Block.extract_eq_some_iff {b : Block} {r : Record} :
    b.extract = some r ↔ b.cell 2 = some r.len ∧ b.cell 3 = some r.devId ∧ b.cell 4 = some r.interval ∧
      b.cellPair 5 = some r.verOff ∧ b.cellPair 7 = some r.val1 ∧ b.cellPair 9 = some r.val2 ∧
      b.cell 11 = some r.status := by
  obtain ⟨len, dev, itv, ver, v1, v2, st⟩ := r
  unfold Block.extract
  cases b.cell 2 <;> cases b.cell 3 <;> cases b.cell 4 <;> cases b.cellPair 5 <;> cases b.cellPair 7 <;>
    cases b.cellPair 9 <;> cases b.cell 11 <;> simp

/-- Judging a chunk emits it or discards it, and nothing else (R77, R78). -/
theorem Block.judge_cases {b b' : Block} (h : b.judge = some b') :
    (b.causes = some 0x0#4 ∧ ∃ r, b.extract = some r ∧ b' = b.emit r) ∨
    (∃ c, c ≠ 0x0#4 ∧ b.causes = some c ∧ b' = b.discard c) := by
  unfold Block.judge at h
  cases hc : b.causes with
  | none => simp [hc] at h
  | some c =>
    simp only [hc] at h
    split at h
    · next h0 =>
      subst h0
      cases hr : b.extract with
      | none => simp [hr] at h
      | some r => exact .inl ⟨rfl, r, rfl, by simpa [hr, eq_comm] using h⟩
    · next h0 => exact .inr ⟨c, h0, rfl, by simpa [eq_comm] using h⟩

/-- All a PUSH can do (R73): drop the byte at saturation, append it, emit the chunk it ends, or discard
the chunk it ends. -/
theorem Block.push_cases {b b' : Block} {x : Byte} (h : b.push x = some b') :
    (b.cnt = 255#8 ∧ b' = b.noEvent) ∨
    (b.cnt ≠ 255#8 ∧ (b.noEvent.append x).boundary = some false ∧ b' = b.noEvent.append x) ∨
    (b.cnt ≠ 255#8 ∧ (b.noEvent.append x).boundary = some true ∧
      (b.noEvent.append x).causes = some 0x0#4 ∧
      ∃ r, (b.noEvent.append x).extract = some r ∧ b' = (b.noEvent.append x).emit r) ∨
    (b.cnt ≠ 255#8 ∧ (b.noEvent.append x).boundary = some true ∧
      ∃ c, c ≠ 0x0#4 ∧ (b.noEvent.append x).causes = some c ∧ b' = (b.noEvent.append x).discard c) := by
  unfold Block.push at h
  split at h
  · next hc => exact .inl ⟨hc, by simpa [eq_comm] using h⟩
  · next hc =>
    cases hb : (b.noEvent.append x).boundary with
    | none => simp [hb] at h
    | some fires =>
      simp only [hb] at h
      cases fires with
      | false => exact .inr (.inl ⟨hc, rfl, by simpa [eq_comm] using h⟩)
      | true =>
        rcases Block.judge_cases h with ⟨h0, r, hr, rfl⟩ | ⟨c, h0, hcs, rfl⟩
        · exact .inr (.inr (.inl ⟨hc, rfl, h0, r, hr, rfl⟩))
        · exact .inr (.inr (.inr ⟨hc, rfl, c, h0, hcs, rfl⟩))

/-- A step of the block is RST, a PUSH or IDLE (R70). -/
theorem Block.sample_cases {b b' : Block} {w : ControlWord} (h : b.sample w = some b') :
    b' = Block.reset ∨ (∃ x, b.push x = some b') ∨ b' = b.noEvent := by
  unfold Block.sample at h
  split at h
  · exact .inl (by simpa [eq_comm] using h)
  · split at h
    · exact .inr (.inl ⟨_, h⟩)
    · exact .inr (.inr (by simpa [eq_comm] using h))

/-- The first byte of a run of bytes goes first (R31). -/
theorem Block.pushAll_cons_eq_some_iff {b b' : Block} {x : Byte} {xs : List Byte} :
    Block.pushAll (x :: xs) b = some b' ↔ ∃ b₁, b.push x = some b₁ ∧ Block.pushAll xs b₁ = some b' := by
  simp only [Block.pushAll]
  cases b.push x <;> simp

/-- Bytes pushed in two runs are the bytes pushed in one. -/
theorem Block.pushAll_append (xs ys : List Byte) (b : Block) :
    Block.pushAll (xs ++ ys) b = (Block.pushAll xs b).bind (Block.pushAll ys) := by
  induction xs generalizing b with
  | nil => rfl
  | cons x xs ih => cases h : b.push x <;> simp [Block.pushAll, h, ih]

/-- The PUSH word of a byte decodes to its PUSH (R50). -/
theorem decode_encode_push (x : Byte) : decode (encode (.push x)) = .ok (.push x) := by
  revert x
  decide +kernel

/-- A step with PUSH words at the head of the stimulus is the PUSH of the first byte, with the words of
the others left at the head. -/
theorem step_offerAll_pushWords (x : Byte) (xs : List Byte) (s : State) :
    step (s.offerAll (pushWords (x :: xs))) = exec (.push x) (s.offerAll (pushWords xs)) := by
  simp only [step, pushWords_cons, State.offerAll_cons, State.fetch_offer, decode_encode_push]

/-- A run of bytes offered as one item does what PUSH does to its first byte. -/
theorem State.pushBytes_cons_eq_next_iff {x : Byte} {xs : List Byte} {s t : State} :
    s.pushBytes (x :: xs) = .next t ↔
      ∃ b, s.blk.push x = some b ∧ t = { s with blk := b, pending := pushWords xs ++ s.pending } :=
  State.onBlock_eq_next_iff

/-- PUSH takes a step exactly when the block can. -/
theorem exec_push_eq_next_iff {x : Byte} {s t : State} :
    exec (.push x) s = .next t ↔ ∃ b, s.blk.push x = some b ∧ t = { s with blk := b } :=
  State.onBlock_eq_next_iff

/-- Everything an instruction that answers a next state can do: RST, IDLE, a PUSH, a read, or the PUSH
of a frame's first byte 0xCC with its other bytes put at the head of the stimulus. -/
theorem exec_cases {i : Instr} {s t : State} (h : exec i s = .next t) :
    (∃ v d, i = .rst v d ∧ t = { s with blk := Block.reset }) ∨
    (∃ d, i = .idle d ∧ t = { s with blk := s.blk.noEvent }) ∨
    (∃ x b, i = .push x ∧ s.blk.push x = some b ∧ t = { s with blk := b }) ∨
    (i.port = .select ∧ ∃ c, t = s.select c) ∨
    (i.port = .stream ∧ ∃ xs b, s.blk.push 0xCC#8 = some b ∧
      t = { s with blk := b, pending := pushWords xs ++ s.pending }) := by
  cases i with
  | rst v d => injection h with h; exact .inl ⟨v, d, rfl, h.symm⟩
  | idle d => injection h with h; exact .inr (.inl ⟨d, rfl, h.symm⟩)
  | push x =>
    obtain ⟨b, hb, rfl⟩ := exec_push_eq_next_iff.1 h
    exact .inr (.inr (.inl ⟨x, b, rfl, hb, rfl⟩))
  | frame13 devId interval verOff val1 val2 status reserved checksum =>
    obtain ⟨b, hb, rfl⟩ := State.pushBytes_cons_eq_next_iff.1 h
    exact .inr (.inr (.inr (.inr ⟨rfl, _, b, hb, rfl⟩)))
  | _ => injection h with h; exact .inr (.inr (.inr (.inl ⟨rfl, _, h.symm⟩)))

/-- As many steps as there are PUSH words at the head of the stimulus push their bytes, one each. -/
theorem run_offerAll_pushWords {xs : List Byte} {s : State} {b : Block}
    (h : s.blk.pushAll xs = some b) :
    Sys2Proof.core.run xs.length (s.offerAll (pushWords xs)) = .next { s with blk := b } := by
  induction xs generalizing s with
  | nil => cases h; rfl
  | cons x xs ih =>
    obtain ⟨c, hc, hb⟩ := Block.pushAll_cons_eq_some_iff.1 h
    have hs : Sys2Proof.core.step (s.offerAll (pushWords (x :: xs))) =
        .next (({ s with blk := c } : State).offerAll (pushWords xs)) :=
      (step_offerAll_pushWords x xs s).trans (exec_push_eq_next_iff.2 ⟨c, hc, rfl⟩)
    simp only [List.length_cons, Host.Core.run, hs]
    exact ih hb

end Sys2Proof.Machine
end

