-- ==== Sys2Proof/Laws/PerInstr.lean ====
section
/-! SUPPORT. Facts stated once per constructor of Instr. -/

namespace Sys2Proof.Laws

/-- The word of an instruction arrives at the port its opcode-table row's format names. -/
def Port.Statement (i : Instr) : Prop := (encode i).port = i.port

theorem Port.rst (v : BitVec 1) (d : Byte) : Port.Statement (.rst v d) := rfl
theorem Port.idle (d : Byte) : Port.Statement (.idle d) := rfl
theorem Port.push (b : Byte) : Port.Statement (.push b) := rfl
theorem Port.rdRsv00 : Port.Statement .rdRsv00 := rfl
theorem Port.rdRsv01 : Port.Statement .rdRsv01 := rfl
theorem Port.rdLen : Port.Statement .rdLen := rfl
theorem Port.rdDevId : Port.Statement .rdDevId := rfl
theorem Port.rdInterval : Port.Statement .rdInterval := rfl
theorem Port.rdVerOff : Port.Statement .rdVerOff := rfl
theorem Port.rdRsv06 : Port.Statement .rdRsv06 := rfl
theorem Port.rdVal1 : Port.Statement .rdVal1 := rfl
theorem Port.rdRsv08 : Port.Statement .rdRsv08 := rfl
theorem Port.rdVal2 : Port.Statement .rdVal2 := rfl
theorem Port.rdRsv0A : Port.Statement .rdRsv0A := rfl
theorem Port.rdStatus : Port.Statement .rdStatus := rfl
theorem Port.rdRsv0C : Port.Statement .rdRsv0C := rfl
theorem Port.rdRsv0D : Port.Statement .rdRsv0D := rfl
theorem Port.rdRsv0E : Port.Statement .rdRsv0E := rfl
theorem Port.rdRsv0F : Port.Statement .rdRsv0F := rfl
theorem Port.rdPid0 : Port.Statement .rdPid0 := rfl
theorem Port.rdPid1 : Port.Statement .rdPid1 := rfl
theorem Port.rdPid2 : Port.Statement .rdPid2 := rfl
theorem Port.rdPid3 : Port.Statement .rdPid3 := rfl
theorem Port.rdPid4 : Port.Statement .rdPid4 := rfl
theorem Port.rdPid5 : Port.Statement .rdPid5 := rfl
theorem Port.rdRsv16 : Port.Statement .rdRsv16 := rfl
theorem Port.rdRsv17 : Port.Statement .rdRsv17 := rfl
theorem Port.rdStat : Port.Statement .rdStat := rfl
theorem Port.rdDbg : Port.Statement .rdDbg := rfl
theorem Port.rdRsv1A : Port.Statement .rdRsv1A := rfl
theorem Port.rdRsv1B : Port.Statement .rdRsv1B := rfl
theorem Port.rdRsv1C : Port.Statement .rdRsv1C := rfl
theorem Port.rdRsv1D : Port.Statement .rdRsv1D := rfl
theorem Port.rdRsv1E : Port.Statement .rdRsv1E := rfl
theorem Port.rdRsv1F : Port.Statement .rdRsv1F := rfl
theorem Port.frame13 (dev itv : Byte) (ver v1 v2 : Half) (st : Byte) (res : List Byte) (k : Byte) : Port.Statement (.frame13 dev itv ver v1 v2 st res k) := rfl

end Sys2Proof.Laws
end

