-- ==== Sys2Proof/Tests/Slice0.lean ====
section
/-! SUPPORT. The model's own tests. Expected values come from spec/: the encoding tables R45, R50 and R51,
and the vectors of spec/95_test_vectors.md, cited at each test. The second part shows, for every
obligation with hypotheses, a concrete case that meets them together. -/

set_option Elab.async false

namespace Sys2Proof.Tests

open Sys2Proof Sys2Proof.Machine

/-! ### Decoding: a word written out from the encoding tables for every constructor -/

/-- R50: RST is bit 9, whatever the others; the control words of 95 section 3.3. -/
theorem test_decode_control :
    decode (.control 0b1000000000#10) = .ok (.rst 0#1 0x00#8) ∧
    decode (.control 0b1111111111#10) = .ok (.rst 1#1 0xFF#8) ∧
    decode (.control 0b0010101011#10) = .ok (.idle 0xAB#8) ∧
    decode (.control 0b0111001100#10) = .ok (.push 0xCC#8) := by decide +kernel

/-- R51, the offset half, codes 00 to 0F. -/
theorem test_decode_offset_half :
    [0b00000#5, 0b00001#5, 0b00010#5, 0b00011#5, 0b00100#5, 0b00101#5, 0b00110#5, 0b00111#5, 0b01000#5,
      0b01001#5, 0b01010#5, 0b01011#5, 0b01100#5, 0b01101#5, 0b01110#5, 0b01111#5].map decodeSelect =
    [.rdRsv00, .rdRsv01, .rdLen, .rdDevId, .rdInterval, .rdVerOff, .rdRsv06, .rdVal1, .rdRsv08, .rdVal2,
      .rdRsv0A, .rdStatus, .rdRsv0C, .rdRsv0D, .rdRsv0E, .rdRsv0F] := by decide +kernel

/-- R51, the derived half, codes 10 to 1F. -/
theorem test_decode_derived_half :
    [0b10000#5, 0b10001#5, 0b10010#5, 0b10011#5, 0b10100#5, 0b10101#5, 0b10110#5, 0b10111#5, 0b11000#5,
      0b11001#5, 0b11010#5, 0b11011#5, 0b11100#5, 0b11101#5, 0b11110#5, 0b11111#5].map decodeSelect =
    [.rdPid0, .rdPid1, .rdPid2, .rdPid3, .rdPid4, .rdPid5, .rdRsv16, .rdRsv17, .rdStat, .rdDbg, .rdRsv1A,
      .rdRsv1B, .rdRsv1C, .rdRsv1D, .rdRsv1E, .rdRsv1F] := by decide +kernel

/-- The frame F1 of 95. -/
def f1 : List Byte :=
  [0xCC#8, 0x55#8, 0x0D#8, 0x20#8, 0x0A#8, 0x00#8, 0x05#8, 0x02#8, 0xBC#8, 0x01#8, 0x2C#8, 0x01#8, 0x1F#8]

/-- The instruction F1 stands for (95 W3). -/
def frameF1 : Instr := .frame13 0x20#8 0x0A#8 0x0005#16 0x02BC#16 0x012C#16 0x01#8 [] 0x1F#8

/-- R45 with F1 of 95 section 1, and the frame of 14 bytes of 95 section 3.1. -/
theorem test_decode_frame :
    decode (.stream f1) = .ok frameF1 ∧
    decode (.stream [0xCC#8, 0x55#8, 0x0E#8, 0x01#8, 0x02#8, 0x00#8, 0x03#8, 0x00#8, 0x04#8, 0x00#8, 0x05#8,
        0x06#8, 0x99#8, 0x56#8]) =
      .ok (.frame13 0x01#8 0x02#8 0x0003#16 0x0004#16 0x0005#16 0x06#8 [0x99#8] 0x56#8) := by decide +kernel

/-- Byte lists that are no frame of R45's layout are rejected, each by its name. -/
theorem test_decode_rejects :
    decode (.stream (0xCD#8 :: f1.tail)) = .error .notSync1 ∧
    decode (.stream (0xCC#8 :: 0x54#8 :: f1.drop 2)) = .error .notSync2 ∧
    decode (.stream (0xCC#8 :: 0x55#8 :: 0x0C#8 :: f1.drop 3)) = .error .lengthBelowMinimum ∧
    decode (.stream (f1.take 12)) = .error .bytesMissing ∧
    decode (.stream (f1 ++ [0x00#8])) = .error .bytesLeftOver ∧
    decode (.stream (f1.take 11)) = .error .headerIncomplete := by decide +kernel

/-- The words of the opcode table as it numbers them: a control word, a select code and F1, whose first
byte is bits 7:0. -/
theorem test_decode_table_words :
    decodeTableWord 16 0x200 = some (.rst 0#1 0x00#8) ∧
    decodeTableWord 16 0x1AB = some (.push 0xAB#8) ∧
    decodeTableWord 8 0x19 = some .rdDbg ∧
    decodeTableWord 104 0x1F012C01BC0205000A200D55CC = some frameF1 ∧
    decodeTableWord 8 0x20 = none ∧ decodeTableWord 16 0x400 = none := by decide +kernel

/-! ### WellFormed smoke -/

/-- A frame with 243 reserved bytes would have to declare 256, which one byte cannot (R45). -/
theorem test_wellFormed_refuses_long_frame :
    (Instr.frame13 0#8 0#8 0#16 0#16 0#16 0#8 (List.replicate 243 0#8) 0#8).wellFormed = false := by
  decide +kernel

/-- 242 reserved bytes make the longest frame, 255 bytes (95 section 3.1). -/
theorem test_wellFormed_accepts_longest_frame :
    (Instr.frame13 0#8 0#8 0#16 0#16 0#16 0#8 (List.replicate 242 0#8) 0#8).wellFormed = true := by
  decide +kernel

/-! ### The checksum engine -/

/-- 95 section 2.1. -/
theorem test_checksum8_pairs :
    checksum8 0x00#8 0x80#8 = 0x8C#8 ∧ checksum8 0xFF#8 0x00#8 = 0x35#8 ∧ checksum8 0xA5#8 0x5A#8 = 0x35#8 ∧
    checksum8 0x69#8 0x55#8 = 0x1D#8 ∧ checksum8 0x05#8 0x20#8 = 0x1C#8 := by decide +kernel

/-- 95 section 2.3: F1, F1 with the wrong byte E1, and the check value of `123456789`. -/
theorem test_checksumFrame_vectors :
    checksumFrame f1 = 0x00#8 ∧ checksumFrame (f1.take 12 ++ [0xE1#8]) = 0x6B#8 ∧
    checksumFrame [0x31#8, 0x32#8, 0x33#8, 0x34#8, 0x35#8, 0x36#8, 0x37#8, 0x38#8, 0x39#8] = 0xA1#8 := by
  decide +kernel

/-! ### One step on a small state -/

/-- The block after pushing bytes from reset. -/
def blockAfter (bytes : List Byte) : Block := (Block.pushAll bytes Block.reset).getD Block.reset

/-- A machine whose block has taken some bytes since reset. -/
def stateAfter (bytes : List Byte) : State := { State.reset with blk := blockAfter bytes }

/-- The state an outcome continues in, if it does. -/
def nextOf (o : Host.Outcome State Fault Refusal) : Option State :=
  match o with
  | .next s => some s
  | _ => none

/-- What a read shows. -/
def shown (i : Instr) (s : State) : Option Half := (nextOf (exec i s)).map State.fdata

/-- 95 section 3.3: control word 0x3FF after `CC 55 0D 20`: RST wins. -/
theorem test_rst_wins :
    nextOf (step ((stateAfter [0xCC#8, 0x55#8, 0x0D#8, 0x20#8]).offer (.control 0x3FF#10))) =
      some State.reset := by decide +kernel

/-- 95 section 3.3: after F1, IDLE takes STAT from 0005 to 0001. -/
theorem test_idle_drops_event :
    (stateAfter f1).blk.stat = 0x0005#16 ∧
    (nextOf (exec (.idle 0x00#8) (stateAfter f1))).map (fun s => s.blk.stat) = some 0x0001#16 := by
  decide +kernel

/-- 95 P1 steps 4 and 5: the fourth byte goes to offset 3. -/
theorem test_push_appends :
    (nextOf (exec (.push 0x20#8) (stateAfter [0xCC#8, 0x55#8, 0x0D#8]))).map
      (fun s => (s.blk.cnt, s.blk.crc, s.blk.cell 3)) = some (4#8, 0xCF#8, some 0x20#8) := by decide +kernel

/-- 95 P3 PUSH 4: a chunk that passes the four checks but has 4 bytes is discarded with SHORT alone. -/
theorem test_push_discards_short :
    (nextOf (exec (.push 0x01#8) (stateAfter [0xCC#8, 0x55#8, 0x04#8]))).map
      (fun s => (s.blk.stat, s.blk.cnt)) = some (0x0088#16, 0#8) := by decide +kernel

/-- 95 W3 and P1 step 14: the last byte of F1 emits it, with its fields. -/
theorem test_push_emits :
    (nextOf (exec (.push 0x1F#8) (stateAfter (f1.take 12)))).map (fun s => (s.blk.record, s.blk.stat)) =
      some (⟨0x0D#8, 0x20#8, 0x0A#8, 0x0005#16, 0x02BC#16, 0x012C#16, 0x01#8⟩, 0x0005#16) := by
  decide +kernel

/-- 95 P1 step 2 with R59: a frame's own step is the PUSH of its first byte, and the PUSH words of the
other twelve come next. -/
theorem test_frame_pushes_first_byte :
    (nextOf (exec frameF1 State.reset)).map (fun s => (s.blk.cnt, s.blk.crc, s.blk.evRec, s.pending)) =
      some (1#8, 0x69#8, false, [0x155#10, 0x10D#10, 0x120#10, 0x10A#10, 0x100#10, 0x105#10, 0x102#10,
        0x1BC#10, 0x101#10, 0x12C#10, 0x101#10, 0x11F#10].map .control) := by decide +kernel

/-- R143: a frame item in mid-chunk, whose first byte ends the chunk: the discard shows in that very
step, before the frame's second byte (cause mask of `AA BB 04 CC`: all four conditions fail, R76). -/
theorem test_frame_shows_event_of_first_byte :
    (nextOf (exec frameF1 (stateAfter [0xAA#8, 0xBB#8, 0x04#8]))).map
      (fun s => (s.blk.evDis, s.blk.dcause, s.blk.cnt, s.pending.length)) =
      some (true, 0xF#4, 0#8, 12) := by decide +kernel

/-- 95 section 3.4, the words of the record after F1. -/
theorem test_read_record :
    [Instr.rdLen, .rdDevId, .rdInterval, .rdVerOff, .rdVal1, .rdVal2, .rdStatus].map (shown · (stateAfter f1)) =
    [some 0x000D#16, some 0x0020#16, some 0x000A#16, some 0x0005#16, some 0x02BC#16, some 0x012C#16,
      some 0x0001#16] := by decide +kernel

/-- 95 section 3.4, the pseudo-identity bytes of DeviceId 0x20. -/
theorem test_read_pid :
    [Instr.rdPid0, .rdPid1, .rdPid2, .rdPid3, .rdPid4, .rdPid5].map (shown · (stateAfter f1)) =
    [some 0x0023#16, some 0x007D#16, some 0x009F#16, some 0x00C1#16, some 0x0042#16, some 0x001C#16] := by
  decide +kernel

/-- 95 section 3.1: `CC 55 00` locks; R106: `CC 55 0D` reads 9D03. -/
theorem test_read_stat_dbg :
    shown .rdStat (stateAfter [0xCC#8, 0x55#8, 0x00#8]) = some 0x0002#16 ∧
    shown .rdDbg (stateAfter [0xCC#8, 0x55#8, 0x0D#8]) = some 0x9D03#16 := by decide +kernel

/-- 95 section 3.4, the reserved codes. -/
theorem test_read_reserved :
    ∀ i ∈ [Instr.rdRsv00, .rdRsv01, .rdRsv06, .rdRsv08, .rdRsv0A, .rdRsv0C, .rdRsv0D, .rdRsv0E, .rdRsv0F,
        .rdRsv16, .rdRsv17, .rdRsv1A, .rdRsv1B, .rdRsv1C, .rdRsv1D, .rdRsv1E, .rdRsv1F],
      shown i (stateAfter f1) = some 0x0000#16 := by decide +kernel

/-- 30 R59: `FRAME 32, 10, 5, 700, 300, 1` is the thirteen pushes of F1 (95 P1). -/
theorem test_stimulus_frame_line :
    stimulus [.rst, .frame 32#8 10#8 5#16 700#16 300#16 1#8 []] =
      (.control 0x200#10) :: f1.map (fun b => .control (0x100#10 + b.zeroExtend 10)) := by decide +kernel

/-! ### Witnesses: for every obligation with hypotheses, a case that meets them together -/

/-- An outcome is a next state of which a check holds, found by running both. -/
theorem exists_next {o : Host.Outcome State Fault Refusal} {P : State → Prop} [DecidablePred P]
    (h : (nextOf o).any (fun t => decide (P t)) = true) : ∃ t, o = .next t ∧ P t := by
  cases o with
  | next t => exact ⟨t, rfl, of_decide_eq_true h⟩
  | fault _ => cases h
  | refused _ => cases h

/-- R22 as a check that runs. -/
def invCheck (b : Block) : Bool :=
  decide (b.buf.map Prod.fst = List.range b.cnt.toNat) && decide (b.crc = checksumFrame b.buf.bytes)
    && (decide (b.cnt ≠ 0) || decide (b.crc = 0x00#8))
    && (decide (b.cnt < 3#8) || match b.cell 2 with
        | some len => decide (b.cnt < len) || decide (len < 3#8)
        | none => false)
    && (decide (b.cnt ≠ 255#8) || b.lock)
    && !(b.evRec && b.evDis) && (decide (b.dcause = 0x0#4) == !b.evDis)
    && (!(b.evRec || b.evDis) || decide (b.cnt = 0))
    && (b.rvld || decide (b.record = Record.zero)) && (!b.rvld || decide (13#8 ≤ b.record.len))

theorem inv_of_invCheck {b : Block} (h : invCheck b = true) : b.Inv := by
  simp only [invCheck, Bool.and_eq_true, Bool.or_eq_true, Bool.not_eq_true', decide_eq_true_eq,
    beq_iff_eq] at h
  obtain ⟨⟨⟨⟨⟨⟨⟨⟨⟨h1, h2⟩, h3⟩, h4⟩, h5⟩, h6⟩, h7⟩, h8⟩, h9⟩, h10⟩ := h
  refine ⟨h1, h2, fun h => h3.resolve_left (fun h' => h' h), fun h => ?_, fun h => h5.resolve_left (fun h' => h' h),
    fun ⟨a, b⟩ => by simp [a, b] at h6, ?_, fun h => h8.resolve_left (fun h' => by
      rcases h with h | h <;> simp [h] at h'), fun h => h9.resolve_left (by simp [h]),
    fun h => h10.resolve_left (by simp [h])⟩
  · rcases h4 with h4 | h4
    · exact absurd h (by simpa using h4)
    · cases hc : b.cell 2 with
      | none => simp [hc] at h4
      | some len => simp only [hc, Bool.or_eq_true, decide_eq_true_eq] at h4; exact ⟨len, rfl, h4⟩
  · cases hd : b.evDis <;> simp_all

/-- Two bytes held: the state before a length byte. -/
def twoHeld : State := stateAfter [0xCC#8, 0x55#8]

/-- A frame but for its checksum byte. -/
def twelveHeld : State := stateAfter (f1.take 12)

/-- Lock-up, by a length byte of 1 (95 P4). -/
def locked : State := stateAfter [0xCC#8, 0x55#8, 0x01#8]

/-- A block in lock-up with `n` bytes of zero held. -/
def zerosBlock (n : Nat) : Block :=
  { Block.reset with buf := (List.range n).map fun k => (k, 0x00#8), cnt := BitVec.ofNat 8 n }

theorem foldl_checksum_zeros (n : Nat) :
    (List.replicate n 0x00#8).foldl checksum8 0x00#8 = 0x00#8 := by
  induction n with
  | zero => rfl
  | succ n ih =>
    rw [List.replicate_succ, List.foldl_cons,
      show checksum8 0x00#8 0x00#8 = 0x00#8 by decide +kernel, ih]

/-- R22 of a lock-up block, at any count its counter can hold. -/
theorem zerosBlock_inv {n : Nat} (hn : n < 256) (h2 : (zerosBlock n).cell 2 = some 0x00#8)
    (hl : (zerosBlock n).lock = true) : (zerosBlock n).Inv where
  cells := by simp [zerosBlock, Function.comp_def, Nat.mod_eq_of_lt hn]
  fold := by
    have h : (zerosBlock n).buf.bytes = List.replicate n 0x00#8 := by
      simp [zerosBlock, Memory.bytes, Function.comp_def, List.map_const']
    rw [checksumFrame, h]
    exact (foldl_checksum_zeros n).symm
  foldEmpty := fun _ => rfl
  noBoundary := fun _ => ⟨0x00#8, h2, .inr (by decide)⟩
  full := fun _ => hl
  oneEvent := fun h => Bool.noConfusion h.1
  cause := ⟨fun _ => rfl, fun _ => rfl⟩
  eventClears := fun h => h.elim Bool.noConfusion Bool.noConfusion
  noRecord := fun _ => rfl
  recordLen := fun h => Bool.noConfusion h

/-- The highest count below saturation, and saturation. -/
theorem zeros254_inv : (zerosBlock 254).Inv := zerosBlock_inv (by decide) rfl rfl

theorem zeros255_inv : (zerosBlock 255).Inv := zerosBlock_inv (by decide) rfl rfl

theorem twoHeld_inv : twoHeld.Inv := inv_of_invCheck (by decide +kernel)

theorem twelveHeld_inv : twelveHeld.Inv := inv_of_invCheck (by decide +kernel)

theorem locked_inv : locked.Inv := inv_of_invCheck (by decide +kernel)

theorem emitted_inv : (stateAfter f1).Inv := inv_of_invCheck (by decide +kernel)

/-- DecodeOfEncode. -/
theorem witness_DecodeOfEncode : frameF1.wellFormed = true := by decide +kernel

/-- EncodeOfDecode, for each port. -/
theorem witness_EncodeOfDecode :
    decode (.control 0x1CC#10) = .ok (.push 0xCC#8) ∧ decode (.select 0x1F#5) = .ok .rdRsv1F ∧
    decode (.stream f1) = .ok frameF1 := by decide +kernel

/-- EveryControlWordIsOneOperation: each of the three matches is met, at the edges of its range. -/
theorem witness_EveryControlWordIsOneOperation :
    (0x200#10 &&& 0x200#10 = 0x200#10 ∧ 0x3FF#10 &&& 0x200#10 = 0x200#10) ∧
    (0x000#10 &&& 0x300#10 = 0x000#10 ∧ 0x0FF#10 &&& 0x300#10 = 0x000#10) ∧
    (0x100#10 &&& 0x300#10 = 0x100#10 ∧ 0x1FF#10 &&& 0x300#10 = 0x100#10) := by decide +kernel

/-- ChecksumBitEquations. -/
theorem witness_ChecksumBitEquations : ∃ s d x y : Byte, x = s ^^^ d ∧ y = checksum8 s d :=
  ⟨0x1F#8, 0xA5#8, _, _, rfl, rfl⟩

/-- DamageIsFoldedAlone. -/
theorem witness_DamageIsFoldedAlone :
    (0x01#8 :: List.replicate 12 0x00#8).length = f1.length ∧ checksumFrame f1 = 0x00#8 := by decide +kernel

/-- PseudoIdentityBytesDiffer. -/
theorem witness_PseudoIdentityBytesDiffer : (0 : Fin 6) ≠ 5 ∧ (0x20#8 : Byte) ≠ 0x21#8 := by decide +kernel

/-- RstReachesResetState (its last clause) and LockEndsOnlyByReset: RST from lock-up. -/
theorem witness_RstLeavesLockUp :
    locked.Inv ∧ locked.blk.lock = true ∧
      ∃ t, exec (.rst 0#1 0x00#8) locked = .next t ∧ t.blk.lock = false :=
  ⟨locked_inv, by decide +kernel, { locked with blk := locked.blk.rst }, rfl, by decide +kernel⟩

/-- LockEndsOnlyByReset, its two clauses on LOCK, at the count where they meet. -/
theorem witness_LockByLengthByte :
    twoHeld.blk.cnt < 3#8 ∧ 3#8 ≤ locked.blk.cnt ∧ locked.blk.cell 2 = some 0x01#8 ∧
      3#8 ≤ (blockAfter [0xCC#8, 0x55#8, 0x04#8]).cnt ∧
      (blockAfter [0xCC#8, 0x55#8, 0x04#8]).cell 2 = some 0x04#8 := by decide +kernel

/-- LockEndsOnlyByReset: the other disjunct, a PUSH in lock-up. -/
theorem witness_LockEndsOnlyByReset :
    locked.Inv ∧ locked.blk.lock = true ∧ (nextOf (exec (.push 0x11#8) locked)).isSome = true :=
  ⟨locked_inv, by decide +kernel, by decide +kernel⟩

/-- LockUpIsForEver. -/
theorem witness_LockUpIsForEver :
    locked.blk.Inv ∧ locked.blk.lock = true ∧ ∀ w ∈ [0x1CC#10, 0x000#10, 0x1FF#10], isRstWord w = false :=
  ⟨locked_inv, by decide +kernel, by decide +kernel⟩

/-- PushCompletes, StepKeepsTheInvariants, NothingEscapes, FrameCompletes, EachStepOfAFramePushesOneByte
(its n at 0 and at 12): a state in mid-frame. -/
theorem witness_stateThatMeetsR22 :
    twoHeld.Inv ∧ twoHeld.blk.cnt = 2#8 ∧ 0 < 13 + ([] : List Byte).length ∧ 12 < 13 + ([] : List Byte).length :=
  ⟨twoHeld_inv, by decide +kernel, by decide, by decide⟩

/-- PushAtSaturationDropsTheByte, both clauses. -/
theorem witness_PushAtSaturationDropsTheByte : (zerosBlock 255).Inv ∧ (zerosBlock 255).cnt = 255#8 :=
  ⟨zeros255_inv, rfl⟩

/-- PushAppends, at the lowest count, at the third byte, which declares 13, and at the highest count. -/
theorem witness_PushAppends :
    (State.reset.Inv ∧ State.reset.blk.cnt ≠ 255#8 ∧ State.reset.blk.endsNoChunk 0xCC#8) ∧
    (twoHeld.Inv ∧ twoHeld.blk.cnt ≠ 255#8 ∧ twoHeld.blk.endsNoChunk 0x0D#8) ∧
    ((zerosBlock 254).Inv ∧ (zerosBlock 254).cnt ≠ 255#8 ∧ (zerosBlock 254).endsNoChunk 0xFF#8) := by
  refine ⟨⟨inv_of_invCheck (by decide +kernel), by decide +kernel, fun len h => ?_⟩,
    ⟨twoHeld_inv, by decide +kernel, fun len h => ?_⟩,
    ⟨zeros254_inv, by decide +kernel, fun len h => ?_⟩⟩
  · exact absurd h.1 (by decide +kernel)
  · have h2 : some 0x0D#8 = some len := h.2.1
    obtain rfl : 0x0D#8 = len := Option.some.inj h2
    exact absurd h.2.2 (by decide +kernel)
  · have h2 : some 0x00#8 = some len := h.2.1
    obtain rfl : 0x00#8 = len := Option.some.inj h2
    exact absurd h.2.2 (by decide +kernel)

/-- PushEmits: the last byte of F1. -/
theorem witness_PushEmits :
    twelveHeld.Inv ∧ twelveHeld.blk.endsChunk 0x1F#8 0x0D#8 ∧ twelveHeld.blk.cell 0 = some 0xCC#8 ∧
      twelveHeld.blk.cell 1 = some 0x55#8 ∧ 13#8 ≤ 0x0D#8 ∧ checksum8 twelveHeld.blk.crc 0x1F#8 = 0x00#8 :=
  ⟨twelveHeld_inv, ⟨by decide +kernel, by decide +kernel, by decide +kernel⟩, by decide +kernel,
    by decide +kernel, by decide +kernel, by decide +kernel⟩

/-- PushDiscards, by CKSUM: F1 with the last byte E1 (95 section 2.3). -/
theorem witness_PushDiscards_checksum :
    twelveHeld.Inv ∧ twelveHeld.blk.endsChunk 0xE1#8 0x0D#8 ∧ twelveHeld.blk.cell 0 = some 0xCC#8 ∧
      twelveHeld.blk.cell 1 = some 0x55#8 ∧ checksum8 twelveHeld.blk.crc 0xE1#8 ≠ 0x00#8 :=
  ⟨twelveHeld_inv, ⟨by decide +kernel, by decide +kernel, by decide +kernel⟩, by decide +kernel,
    by decide +kernel, by decide +kernel⟩

/-- PushDiscards, by SYNC1 and SYNC2 and SHORT, at the shortest chunk: `AA BB 03`. -/
theorem witness_PushDiscards_sync_short :
    (stateAfter [0xAA#8, 0xBB#8]).Inv ∧ (stateAfter [0xAA#8, 0xBB#8]).blk.endsChunk 0x03#8 0x03#8 ∧
      (stateAfter [0xAA#8, 0xBB#8]).blk.cell 0 = some 0xAA#8 ∧
      (stateAfter [0xAA#8, 0xBB#8]).blk.cell 1 = some 0xBB#8 ∧ (0x03#8 : Byte) < 13#8 :=
  ⟨inv_of_invCheck (by decide +kernel), ⟨by decide +kernel, by decide +kernel, by decide +kernel⟩,
    by decide +kernel, by decide +kernel, by decide +kernel⟩

/-- LengthByteDecidesTheChunk: each clause at the values where they meet, with good sync bytes held. -/
theorem witness_LengthByteDecidesTheChunk :
    twoHeld.Inv ∧ twoHeld.blk.cnt = 2#8 ∧ (0x02#8 : Byte) < 3#8 ∧ (3#8 : Byte) < 0x04#8 ∧
      twoHeld.blk.cell 0 = some 0xCC#8 ∧ twoHeld.blk.cell 1 = some 0x55#8 :=
  ⟨twoHeld_inv, by decide +kernel, by decide +kernel, by decide +kernel, by decide +kernel, by decide +kernel⟩

/-- EndedChunkIsEmittedOrDiscarded: a chunk that ends, and the PUSH answers a next state. -/
theorem witness_EndedChunkIsEmittedOrDiscarded :
    twelveHeld.Inv ∧ twelveHeld.blk.endsChunk 0x1F#8 0x0D#8 ∧
      (nextOf (exec (.push 0x1F#8) twelveHeld)).isSome = true :=
  ⟨twelveHeld_inv, ⟨by decide +kernel, by decide +kernel, by decide +kernel⟩, by decide +kernel⟩

/-- EventFlagsAreWrittenEveryStep, CounterMoves, RecordWrittenOnlyByEmitOrReset, RvldIsSticky,
SelectInputHasNoEffectOnState: an instruction that answers a next state and changes the record. -/
theorem witness_execAnswersNext :
    ∃ t, exec (decodeControl 0x11F#10) twelveHeld = .next t ∧ t.blk.record ≠ twelveHeld.blk.record ∧
      t.blk.evRec = true :=
  exists_next (by decide +kernel)

/-- RecordWrittenOnlyByEmitOrReset: a PUSH that discards, with a record held from before (95 section 3.2,
mask 8, after F1). -/
theorem witness_discardKeepsRecord :
    ∃ t, exec (.push 0xB9#8) (stateAfter (f1 ++ [0xCC#8, 0x55#8, 0x05#8, 0x20#8])) = .next t ∧
      t.blk.evDis = true ∧ t.blk.rvld = true :=
  exists_next (by decide +kernel)

/-- EventsLastOneStep, ReadOfDebug's event clause, the RVLD = 1 clause of ReadsOfTheRecordWords, and
NothingEscapes with no stimulus left: the state after an emit. -/
theorem witness_eventShown :
    (stateAfter f1).Inv ∧ (stateAfter f1).blk.evRec = true ∧ (stateAfter f1).blk.rvld = true ∧
      (∀ bytes, (stateAfter f1).pending.head? ≠ some (.stream bytes)) ∧
      ∃ t, exec (decodeControl 0x1CC#10) (stateAfter f1) = .next t ∧ t.blk.evRec = false :=
  ⟨emitted_inv, by decide +kernel, by decide +kernel, fun _ => by simp [stateAfter, State.reset],
    exists_next (by decide +kernel)⟩

/-- The RVLD = 0 clauses of RvldIsSticky, ReadsOfTheRecordWords and ReadsOfThePseudoIdentity. -/
theorem witness_noRecordYet : twoHeld.Inv ∧ twoHeld.blk.rvld = false := ⟨twoHeld_inv, by decide +kernel⟩

/-- StepKeepsTheInvariants and StepKeepsMemoryCanonical: a step that answers a next state. -/
theorem witness_StepAnswersNext :
    twoHeld.blk.buf.wf ∧ (nextOf (step (twoHeld.offer (.control 0x10D#10)))).isSome = true := by
  decide +kernel

/-- ReachableStatesMeetTheInvariants and StatusValuesThatCanBeRead: a run of two steps, which leaves a
frame in mid-flight. -/
theorem witness_reachable :
    (nextOf (Sys2Proof.core.run 2 (State.reset.withStimulus [.select 0x19#5, .stream f1]))).map
      (fun t => (t.fdata, t.pending.length)) = some (0x6901#16, 12) := by decide +kernel

/-- GoodFrameIsEmittedWithItsFields, FrameIsItsPushes and EventIsShownRightAfterTheByteThatCausesIt (its n
at 0 and at 11), with no reserved byte and with the most that fit. -/
theorem witness_GoodFrame :
    State.reset.blk.AtOffset0 ∧ 13 + ([] : List Byte).length ≤ 255 ∧
      13 + (List.replicate 242 0xFF#8).length ≤ 255 :=
  ⟨⟨rfl, rfl, rfl⟩, by decide +kernel, by decide +kernel⟩

/-- BadChecksumFrameIsDiscarded: F1 with E1 for 1F. -/
theorem witness_BadChecksumFrame :
    State.reset.blk.AtOffset0 ∧
      0xE1#8 ≠ checksumFrame (framePrefix 0x20#8 0x0A#8 0x0005#16 0x02BC#16 0x012C#16 0x01#8 []) :=
  ⟨⟨rfl, rfl, rfl⟩, by decide +kernel⟩

/-- SingleBitDamageIsDiscarded, at the first and the last byte. -/
theorem witness_SingleBitDamage : State.reset.blk.AtOffset0 ∧ (0 : Fin 13) ≠ 2 ∧ (12 : Fin 13) ≠ 2 :=
  ⟨⟨rfl, rfl, rfl⟩, by decide +kernel, by decide +kernel⟩

/-- EventsAreSpaced and NoAliasingAcrossAFrameBoundary: a chunk of three bytes, after two histories. -/
theorem witness_EventsAreSpaced :
    Block.reset.AtOffset0 ∧ (blockAfter f1).AtOffset0 ∧
      (∀ w ∈ [0x100#10, 0x100#10, 0x103#10], isRstWord w = false) ∧
      (Block.reset.feed [0x100#10, 0x100#10, 0x103#10]).map Prod.fst = some [.discard 0xF#4] :=
  ⟨⟨rfl, rfl, rfl⟩, ⟨by decide +kernel, by decide +kernel, by decide +kernel⟩, by decide +kernel, by decide +kernel⟩

/-- StepRunsTheDecodedInstruction: each clause, and ControlWordStep for each of its three words. -/
theorem witness_StepRuns :
    (∃ rest i, (State.reset.withStimulus [.select 0x02#5]).pending = .select 0x02#5 :: rest ∧
      decode (.select 0x02#5) = .ok i) ∧
    (∃ rest why, (State.reset.withStimulus [.stream []]).pending = .stream [] :: rest ∧
      decode (.stream []) = .error why) ∧
    State.reset.pending = [] ∧
    (0x3FF#10).getLsbD 9 = true ∧ (0x1FF#10).getLsbD 9 = false ∧ (0x1FF#10).getLsbD 8 = true ∧
    (0x0FF#10).getLsbD 9 = false ∧ (0x0FF#10).getLsbD 8 = false :=
  ⟨⟨_, _, rfl, rfl⟩, ⟨_, _, rfl, rfl⟩, rfl, by decide +kernel, by decide +kernel, by decide +kernel, by decide +kernel, by decide +kernel⟩

/-- FetchedTableWordRunsNext, both clauses. -/
theorem witness_FetchedTableWord :
    decodeTableWord 8 0x02 = some .rdLen ∧ decodeTableWord 8 0x20 = none := by decide +kernel

/-- OutputsFollowTheState: two states that differ only in the stimulus to come. -/
theorem witness_OutputsFollowTheState :
    twoHeld.blk = (twoHeld.offer (.select 0x00#5)).blk ∧ twoHeld.fsel = (twoHeld.offer (.select 0x00#5)).fsel :=
  ⟨rfl, rfl⟩

end Sys2Proof.Tests
end

section
/-! SUPPORT. One step through the stimulus fetch and the decoder: what each fetch and each answer of the
decoder make of it (R7, R58). -/

namespace Sys2Proof.Machine

/-- With no stimulus left the producer offers the control word 0x000 (R24). -/
theorem State.fetch_of_pending_nil {s : State} (h : s.pending = []) :
    s.fetch = (.control 0x000#10, s) := by
  simp [State.fetch, h]

/-- The oldest stimulus word is fetched, and the others stay. -/
theorem State.fetch_of_pending_cons {s : State} {x : StimulusWord} {rest : List StimulusWord}
    (h : s.pending = x :: rest) : s.fetch = (x, { s with pending := rest }) := by
  simp [State.fetch, h]

/-- The fetched word's instruction runs on the state the fetch leaves. -/
theorem step_of_decode_ok {s t : State} {x : StimulusWord} {i : Instr}
    (hf : s.fetch = (x, t)) (hd : decode x = .ok i) : step s = exec i t := by
  simp [step, hf, hd]

/-- A fetched word that is no instruction stops the step with the decoder's reason. -/
theorem step_of_decode_error {s t : State} {x : StimulusWord} {why : Reject}
    (hf : s.fetch = (x, t)) (hd : decode x = .error why) :
    step s = .refused (.undecodable why) := by
  simp [step, hf, hd]

/-- The word of a producer that offers nothing is IDLE (R24, R50). -/
theorem decode_control_zero : decode (.control 0x000#10) = .ok (.idle 0x00#8) := rfl

/-- Settles O53: the fetch by the cases of the stimulus, then the step by the decoder's answer. -/
theorem stepRunsTheDecodedInstruction : Obligations.StepRunsTheDecodedInstruction := by
  unfold Obligations.StepRunsTheDecodedInstruction
  refine ⟨fun s x rest i hp hd => ?decodes, fun s x rest why hp hd => ?rejected, fun s hp => ?noWord⟩
  case decodes => exact step_of_decode_ok (State.fetch_of_pending_cons hp) hd
  case rejected => exact step_of_decode_error (State.fetch_of_pending_cons hp) hd
  case noWord => exact step_of_decode_ok (State.fetch_of_pending_nil hp) decode_control_zero

end Sys2Proof.Machine
end

section
/-! SUPPORT. What every operation of the block keeps, every step and every run keeps: the induction over
runs, once. -/

namespace Sys2Proof.Machine

/-- What a step of the block can do, kept: the property holds after RST and is kept when the event flags
fall back to 0 and by PUSH. -/
structure Block.Kept (P : Block → Prop) : Prop where
  reset : P Block.reset
  noEvent : ∀ {b : Block}, P b → P b.noEvent
  push : ∀ {b b' : Block} {x : Byte}, P b → b.push x = some b' → P b'

theorem step_eq_next_iff {s t : State} :
    step s = .next t ↔ ∃ i, decode s.fetch.1 = .ok i ∧ exec i s.fetch.2 = .next t := by
  unfold step
  cases decode s.fetch.1 <;> simp

theorem core_run_succ_eq_next_iff {n : Nat} {s t : State} :
    Sys2Proof.core.run (n + 1) s = .next t ↔
      ∃ u, step s = .next u ∧ Sys2Proof.core.run n u = .next t := by
  have hstep : Sys2Proof.core.step s = step s := rfl
  simp only [Host.Core.run, hstep]
  cases step s <;> simp

section
variable {P : Block → Prop} {s t : State}

theorem Block.Kept.exec (hP : Block.Kept P) {i : Instr} (hs : P s.blk) (h : exec i s = .next t) :
    P t.blk := by
  rcases exec_cases h with ⟨_, _, _, rfl⟩ | ⟨_, _, rfl⟩ | ⟨_, _, _, hb, rfl⟩ | ⟨_, _, rfl⟩ |
    ⟨_, _, _, hb, rfl⟩
  case inl => exact hP.reset
  case inr.inl => exact hP.noEvent hs
  case inr.inr.inl => exact hP.push hs hb
  case inr.inr.inr.inl => exact hs
  case inr.inr.inr.inr => exact hP.push hs hb

theorem Block.Kept.step (hP : Block.Kept P) (hs : P s.blk) (h : step s = .next t) : P t.blk := by
  obtain ⟨i, -, hi⟩ := step_eq_next_iff.1 h
  exact hP.exec (by simpa using hs) hi

theorem Block.Kept.run (hP : Block.Kept P) {n : Nat} (hs : P s.blk)
    (h : Sys2Proof.core.run n s = .next t) : P t.blk := by
  induction n generalizing s with
  | zero => cases h; exact hs
  | succ n ih =>
    obtain ⟨u, hu, ht⟩ := core_run_succ_eq_next_iff.1 h
    exact ih (hP.step hs hu) ht

theorem Block.Kept.run_reset (hP : Block.Kept P) {ws : List StimulusWord} {n : Nat}
    (h : Sys2Proof.core.run n (State.reset.withStimulus ws) = .next t) : P t.blk :=
  hP.run hP.reset h

end

end Sys2Proof.Machine
end

section
/-! SUPPORT. Cells, count, `LOCK` and buffer under the append (R18, R74). -/

namespace Sys2Proof.Machine

@[simp] theorem Block.noEvent_cell (b : Block) (k : Nat) : b.noEvent.cell k = b.cell k := rfl

@[simp] theorem Block.noEvent_lock (b : Block) : b.noEvent.lock = b.lock := rfl

@[simp] theorem Block.append_cell_same (b : Block) (x : Byte) :
    (b.append x).cell b.cnt.toNat = some x :=
  Memory.read_write_same ..

theorem Block.append_cell_other {b : Block} {k : Nat} (h : k ≠ b.cnt.toNat) (x : Byte) :
    (b.append x).cell k = b.cell k :=
  Memory.read_write_other _ _ _ h

theorem Block.append_cnt_toNat {b : Block} (h : b.cnt ≠ 255#8) (x : Byte) :
    (b.append x).cnt.toNat = b.cnt.toNat + 1 := by
  rw [Block.append_cnt]
  bv_omega

/-- From the fourth byte on, an append leaves the length byte alone. -/
theorem Block.append_cell_two {b : Block} (h : 3#8 ≤ b.cnt) (x : Byte) :
    (b.append x).cell 2 = b.cell 2 :=
  Block.append_cell_other (by bv_omega) x

theorem Block.lock_eq_true_iff {b : Block} :
    b.lock = true ↔ 3#8 ≤ b.cnt ∧ ∃ len, b.cell 2 = some len ∧ len < 3#8 := by
  unfold Block.lock
  cases b.cell 2 <;> simp

theorem Block.append_lock {b : Block} (hl : b.lock = true) (hc : b.cnt ≠ 255#8) (x : Byte) :
    (b.append x).lock = true := by
  obtain ⟨h3, hlen⟩ := Block.lock_eq_true_iff.1 hl
  refine Block.lock_eq_true_iff.2 ⟨?_, by rwa [Block.append_cell_two h3]⟩
  rw [Block.append_cnt]
  bv_omega

/-- In lock-up the declared length is below every count at which the boundary is tested (R86). -/
theorem Block.boundary_ne_true_of_lock {b : Block} (hl : b.lock = true) : b.boundary ≠ some true := by
  intro h
  obtain ⟨h3, len, hlen, hlt⟩ := Block.lock_eq_true_iff.1 hl
  rcases Block.boundary_eq_some_iff.1 h with ⟨_, hf⟩ | ⟨_, len', hlen', heq⟩
  · cases hf
  · obtain rfl : len = len' := Option.some.inj (hlen.symm.trans hlen')
    have heq : b.cnt = len := by simpa using heq
    bv_omega

/-- An append writes at a count below 255, and every other operation keeps the buffer or empties it. -/
theorem Memory.wf_kept : Block.Kept fun b => b.buf.wf where
  reset := Memory.wf_nil
  noEvent hb := hb
  push {b b' x} hb h := by
    rcases Block.push_cases h with ⟨_, rfl⟩ | ⟨hc, _, rfl⟩ | ⟨_, _, _, _, _, rfl⟩ | ⟨_, _, _, _, _, rfl⟩
    · exact hb
    · have hlt : b.cnt.toNat < Config.bufCells := by
        unfold Config.bufCells
        bv_omega
      exact Memory.write_wf hb hlt x
    · exact Memory.wf_nil
    · exact Memory.wf_nil

end Sys2Proof.Machine
end

section
/-! SUPPORT. The invariants of R22 in three independent groups, the buffer (items 1 to 4), the event flags
(items 5 and 6) and the record registers (item 7), each with what keeps it. -/

namespace Sys2Proof.Machine

/-- R22 items 1 to 3, from which the rest of items 2 and 4 follow. -/
structure Block.Collecting (b : Block) : Prop where
  cells : b.buf.map Prod.fst = List.range b.cnt.toNat
  fold : b.crc = checksumFrame b.buf.bytes
  noBoundary : 3#8 ≤ b.cnt → ∃ len, b.cell 2 = some len ∧ (b.cnt < len ∨ len < 3#8)

/-- R22 items 5 and 6. -/
structure Block.FlagsConsistent (b : Block) : Prop where
  oneEvent : ¬(b.evRec = true ∧ b.evDis = true)
  cause : b.dcause = 0x0#4 ↔ b.evDis = false
  eventClears : b.evRec = true ∨ b.evDis = true → b.cnt = 0

/-- R22 item 7. -/
structure Block.RecordConsistent (b : Block) : Prop where
  noRecord : b.rvld = false → b.record = Record.zero
  recordLen : b.rvld = true → 13#8 ≤ b.record.len

/-- An empty block folds to 0. -/
theorem Block.Collecting.crc_of_cnt_zero {b : Block} (hb : b.Collecting) (h0 : b.cnt = 0) :
    b.crc = 0x00#8 := by
  have hbuf : b.buf = [] := by simpa [h0] using hb.cells
  rw [hb.fold, hbuf]
  rfl

/-- No declared length is above 255, so a full buffer is in lock-up. -/
theorem Block.Collecting.lock_of_full {b : Block} (hb : b.Collecting) (hc : b.cnt = 255#8) :
    b.lock = true := by
  have h3 : 3#8 ≤ b.cnt := by bv_omega
  obtain ⟨len, hlen, hlt⟩ := hb.noBoundary h3
  exact Block.lock_eq_true_iff.2 ⟨h3, len, hlen, by bv_omega⟩

theorem Block.inv_iff {b : Block} :
    b.Inv ↔ b.Collecting ∧ b.FlagsConsistent ∧ b.RecordConsistent := by
  refine ⟨fun h => ⟨⟨h.cells, h.fold, h.noBoundary⟩, ⟨h.oneEvent, h.cause, h.eventClears⟩,
    ⟨h.noRecord, h.recordLen⟩⟩, fun ⟨hb, hf, hr⟩ => ?_⟩
  exact
    { cells := hb.cells, fold := hb.fold, foldEmpty := hb.crc_of_cnt_zero, noBoundary := hb.noBoundary
      full := hb.lock_of_full, oneEvent := hf.oneEvent, cause := hf.cause
      eventClears := hf.eventClears, noRecord := hr.noRecord, recordLen := hr.recordLen }

theorem Block.AtOffset0.collecting {b : Block} (h : b.AtOffset0) : b.Collecting where
  cells := by simp [h.buf, h.cnt]
  fold := by rw [h.buf, h.crc]; rfl
  noBoundary h3 := by rw [h.cnt] at h3; exact absurd h3 (by decide)

/-- The append adds its cell above all cells held. -/
theorem Block.Collecting.append_buf {b : Block} (hb : b.Collecting) (x : Byte) :
    (b.append x).buf = b.buf ++ [(b.cnt.toNat, x)] := by
  refine Memory.write_eq_append (fun p hp => ?_) x
  have hmem : p.1 ∈ b.buf.map Prod.fst := List.mem_map_of_mem hp
  rw [hb.cells] at hmem
  exact List.mem_range.1 hmem

/-- An append that fires no boundary keeps items 1 to 3: the count, one more, has reached neither a
declared length still ahead nor the length byte just written. -/
theorem Block.Collecting.append {b : Block} (hb : b.Collecting) {x : Byte} (hc : b.cnt ≠ 255#8)
    (hq : (b.append x).boundary = some false) : (b.append x).Collecting where
  cells := by
    rw [hb.append_buf, List.map_append, hb.cells, Block.append_cnt_toNat hc, List.range_succ]
    rfl
  fold := by
    rw [hb.append_buf, Block.append_crc, hb.fold, ← checksumFrame_concat]
    simp [Memory.bytes]
  noBoundary h3 := by
    rcases Block.boundary_eq_some_iff.1 hq with ⟨hlt, _⟩ | ⟨_, len, hlen, hne⟩
    · bv_omega
    · have hne : b.cnt + 1 ≠ len := of_decide_eq_false hne.symm
      rw [Block.append_cnt] at h3 ⊢
      refine ⟨len, hlen, ?_⟩
      by_cases hold : 3#8 ≤ b.cnt
      · obtain ⟨len', hlen', hlt⟩ := hb.noBoundary hold
        rw [Block.append_cell_two hold, hlen'] at hlen
        obtain rfl := Option.some.inj hlen
        bv_omega
      · bv_omega

theorem Block.Collecting.noEvent {b : Block} (hb : b.Collecting) : b.noEvent.Collecting :=
  ⟨hb.cells, hb.fold, hb.noBoundary⟩

theorem Block.collecting_kept : Block.Kept Block.Collecting where
  reset := Block.AtOffset0.collecting ⟨rfl, rfl, rfl⟩
  noEvent hb := hb.noEvent
  push {b b' x} hb h := by
    rcases Block.push_cases h with ⟨_, rfl⟩ | ⟨hc, hq, rfl⟩ | ⟨_, _, _, _, _, rfl⟩ | ⟨_, _, _, _, _, rfl⟩
    · exact hb.noEvent
    · exact hb.noEvent.append hc hq
    · exact Block.AtOffset0.collecting ⟨rfl, rfl, rfl⟩
    · exact Block.AtOffset0.collecting ⟨rfl, rfl, rfl⟩

/-- Flags that show no event are consistent. -/
theorem Block.FlagsConsistent.of_noEvent {b : Block} (hr : b.evRec = false) (hd : b.evDis = false)
    (hc : b.dcause = 0x0#4) : b.FlagsConsistent where
  oneEvent := by simp [hr]
  cause := by simp [hd, hc]
  eventClears := by simp [hr, hd]

/-- PUSH writes consistent flags, whatever they were before. -/
theorem Block.push_flagsConsistent {b b' : Block} {x : Byte} (h : b.push x = some b') :
    b'.FlagsConsistent := by
  rcases Block.push_cases h with ⟨_, rfl⟩ | ⟨_, _, rfl⟩ | ⟨_, _, _, r, _, rfl⟩ | ⟨_, _, c, hc, _, rfl⟩
  · exact .of_noEvent rfl rfl rfl
  · exact .of_noEvent rfl rfl rfl
  · exact { oneEvent := by simp, cause := by simp, eventClears := fun _ => rfl }
  · exact { oneEvent := by simp, cause := by simp [hc], eventClears := fun _ => rfl }

theorem Block.flagsConsistent_kept : Block.Kept Block.FlagsConsistent where
  reset := .of_noEvent rfl rfl rfl
  noEvent _ := .of_noEvent rfl rfl rfl
  push _ h := Block.push_flagsConsistent h

/-- A chunk without a cause bit declares at least 13 bytes, and that is the length extracted. -/
theorem Block.len_of_causes_zero {b : Block} {r : Record} (hc : b.causes = some 0x0#4)
    (hr : b.extract = some r) : 13#8 ≤ r.len := by
  obtain ⟨b0, b1, len, _, _, hlen, hmask⟩ := Block.causes_eq_some_iff.1 hc
  obtain ⟨_, _, _, hmin⟩ := causeMask_eq_zero_iff.1 hmask.symm
  obtain ⟨hrlen, _⟩ := Block.extract_eq_some_iff.1 hr
  obtain rfl : len = r.len := Option.some.inj (hlen.symm.trans hrlen)
  exact BitVec.not_lt.1 hmin

theorem Block.recordConsistent_kept : Block.Kept Block.RecordConsistent where
  reset := ⟨fun _ => rfl, fun h => Bool.noConfusion h⟩
  noEvent hb := ⟨hb.noRecord, hb.recordLen⟩
  push hb h := by
    rcases Block.push_cases h with ⟨_, rfl⟩ | ⟨_, _, rfl⟩ | ⟨_, _, hc, r, hr, rfl⟩ | ⟨_, _, _, _, _, rfl⟩
    · exact ⟨hb.noRecord, hb.recordLen⟩
    · exact ⟨hb.noRecord, hb.recordLen⟩
    · exact ⟨fun h => Bool.noConfusion h, fun _ => Block.len_of_causes_zero hc hr⟩
    · exact ⟨hb.noRecord, hb.recordLen⟩

/-- R22 holds after RST, and every operation of the block keeps it. -/
theorem Block.inv_kept : Block.Kept Block.Inv where
  reset := Block.inv_iff.2
    ⟨collecting_kept.reset, flagsConsistent_kept.reset, recordConsistent_kept.reset⟩
  noEvent hb := by
    obtain ⟨hbuf, hflags, hrec⟩ := Block.inv_iff.1 hb
    exact Block.inv_iff.2
      ⟨collecting_kept.noEvent hbuf, flagsConsistent_kept.noEvent hflags,
        recordConsistent_kept.noEvent hrec⟩
  push hb h := by
    obtain ⟨hbuf, hflags, hrec⟩ := Block.inv_iff.1 hb
    exact Block.inv_iff.2
      ⟨collecting_kept.push hbuf h, flagsConsistent_kept.push hflags h,
        recordConsistent_kept.push hrec h⟩

end Sys2Proof.Machine
end

section
/-! SUPPORT. The record registers, `RVLD` and `LOCK` under PUSH, and the decoder's control words. -/

namespace Sys2Proof.Machine

section
variable {b b' : Block} {x : Byte}

/-- A PUSH that emits nothing leaves the record registers and `RVLD` alone (R15, R78). -/
theorem Block.push_keeps_record (h : b.push x = some b') (he : b'.evRec = false) :
    b'.record = b.record ∧ b'.rvld = b.rvld := by
  rcases Block.push_cases h with ⟨_, rfl⟩ | ⟨_, _, rfl⟩ | ⟨_, _, _, _, _, rfl⟩ | ⟨_, _, _, _, _, rfl⟩
  · exact ⟨rfl, rfl⟩
  · exact ⟨rfl, rfl⟩
  · cases he
  · exact ⟨rfl, rfl⟩

/-- A PUSH that emits sets `RVLD` (R16). -/
theorem Block.push_sets_rvld (h : b.push x = some b') (he : b'.evRec = true) : b'.rvld = true := by
  rcases Block.push_cases h with ⟨_, rfl⟩ | ⟨_, _, rfl⟩ | ⟨_, _, _, _, _, rfl⟩ | ⟨_, _, _, _, _, rfl⟩
  · cases he
  · cases he
  · rfl
  · cases he

theorem Block.push_emits_of_record_ne (h : b.push x = some b') (hne : b'.record ≠ b.record) :
    b'.evRec = true := by
  cases he : b'.evRec with
  | true => rfl
  | false => exact absurd (Block.push_keeps_record h he).1 hne

theorem Block.push_keeps_rvld (h : b.push x = some b') (hv : b.rvld = true) : b'.rvld = true := by
  cases he : b'.evRec with
  | true => exact Block.push_sets_rvld h he
  | false => rw [(Block.push_keeps_record h he).2, hv]

/-- A PUSH in lock-up appends or drops its byte, and no boundary fires (R18, R86). -/
theorem Block.push_of_lock (h : b.push x = some b') (hl : b.lock = true) :
    b'.lock = true ∧ b'.evRec = false ∧ b'.evDis = false := by
  have hlock (hc : b.cnt ≠ 255#8) : (b.noEvent.append x).lock = true := Block.append_lock hl hc x
  rcases Block.push_cases h with ⟨_, rfl⟩ | ⟨hc, _, rfl⟩ | ⟨hc, hq, _⟩ | ⟨hc, hq, _⟩
  · exact ⟨hl, rfl, rfl⟩
  · exact ⟨hlock hc, rfl, rfl⟩
  · exact absurd hq (Block.boundary_ne_true_of_lock (hlock hc))
  · exact absurd hq (Block.boundary_ne_true_of_lock (hlock hc))

end

/-- In lock-up bytes are held, so no event is shown (R22 item 6). -/
theorem Block.Inv.noEvent_of_lock {b : Block} (hb : b.Inv) (hl : b.lock = true) :
    b.evRec = false ∧ b.evDis = false := by
  have hcnt : b.cnt ≠ 0 := by
    obtain ⟨h3, _⟩ := Block.lock_eq_true_iff.1 hl
    bv_omega
  have hev : ¬(b.evRec = true ∨ b.evDis = true) := fun h => hcnt (hb.eventClears h)
  simpa using hev

theorem extractLsb'_one_eq_one_iff {n : Nat} {w : BitVec n} {k : Nat} :
    w.extractLsb' k 1 = 1#1 ↔ w.getLsbD k = true := by
  simp [BitVec.eq_of_getLsbD_eq_iff]

/-- The operation of a control word, by the bits R50 names. -/
theorem decodeControl_cases (w : ControlWord) :
    (isRstWord w = true ∧ ∃ v d, decodeControl w = .rst v d) ∨
    (isPushWord w = true ∧ ∃ x, decodeControl w = .push x) ∨
    (isIdleWord w = true ∧ ∃ d, decodeControl w = .idle d) := by
  unfold decodeControl isRstWord isPushWord isIdleWord
  simp only [extractLsb'_one_eq_one_iff]
  split
  · next h9 => exact .inl ⟨h9, _, _, rfl⟩
  · next h9 =>
    rw [Bool.not_eq_true] at h9
    split
    · next h8 => exact .inr (.inl ⟨by rw [h9, h8]; rfl, _, rfl⟩)
    · next h8 =>
      rw [Bool.not_eq_true] at h8
      exact .inr (.inr ⟨by rw [h9, h8]; rfl, _, rfl⟩)

end Sys2Proof.Machine
end

section
/-! SUPPORT. The views STAT and DBG, and the reads that show them (R19, R20). -/

namespace Sys2Proof.Machine

theorem shows_rdStat (s : State) : Shows .rdStat s s.blk.stat := ⟨_, rfl, rfl, rfl, rfl⟩

theorem shows_rdDbg (s : State) : Shows .rdDbg s s.blk.dbg := ⟨_, rfl, rfl, rfl, rfl⟩

section
variable {n : Nat} {v : BitVec n} {p : Bool}

theorem getLsbD_appendBit_zero : (v ++ BitVec.ofBool p).getLsbD 0 = p := by
  rw [BitVec.getLsbD_append]
  simp

theorem getLsbD_appendBit_succ {k : Nat} :
    (v ++ BitVec.ofBool p).getLsbD (k + 1) = v.getLsbD k := by
  simp [BitVec.getLsbD_append]

/-- The bits above the four flags of a status word are those of the vector the flags are appended to. -/
theorem extractLsb'_above_four_bits {q r s : Bool} {k len : Nat} :
    (v ++ BitVec.ofBool p ++ BitVec.ofBool q ++ BitVec.ofBool r ++ BitVec.ofBool s).extractLsb' (k + 4) len
      = v.extractLsb' k len := by
  iterate 4 rw [BitVec.extractLsb'_append_eq_of_le (by omega)]
  rfl

end

/-- The fields of STAT, from bit 0 up (R19). -/
theorem Block.stat_fields (b : Block) :
    b.stat.getLsbD 0 = b.rvld ∧ b.stat.getLsbD 1 = b.lock ∧ b.stat.getLsbD 2 = b.evRec ∧
      b.stat.getLsbD 3 = b.evDis ∧ b.stat.extractLsb' 4 4 = b.dcause ∧
      b.stat.extractLsb' 8 8 = 0x00#8 := by
  refine ⟨?rvld, ?lock, ?evRec, ?evDis, ?dcause, ?zeros⟩
  case rvld => exact getLsbD_appendBit_zero
  case lock => exact getLsbD_appendBit_succ.trans getLsbD_appendBit_zero
  case evRec =>
    exact getLsbD_appendBit_succ.trans (getLsbD_appendBit_succ.trans getLsbD_appendBit_zero)
  case evDis =>
    exact getLsbD_appendBit_succ.trans
      (getLsbD_appendBit_succ.trans (getLsbD_appendBit_succ.trans getLsbD_appendBit_zero))
  case dcause => exact extractLsb'_above_four_bits.trans BitVec.extractLsb'_append_eq_right
  case zeros => exact extractLsb'_above_four_bits.trans BitVec.extractLsb'_append_eq_left

theorem Block.dbg_cnt (b : Block) : b.dbg.extractLsb' 0 8 = b.cnt := BitVec.extractLsb'_append_eq_right

theorem Block.dbg_crc (b : Block) : b.dbg.extractLsb' 8 8 = b.crc := BitVec.extractLsb'_append_eq_left

/-- An event leaves the buffer clear, so DBG reads 0 (R22 items 2 and 6). -/
theorem Block.Inv.dbg_of_event {b : Block} (hb : b.Inv) (he : b.evRec = true ∨ b.evDis = true) :
    b.dbg = 0x0000#16 := by
  have hcnt : b.cnt = 0 := hb.eventClears he
  rw [Block.dbg, hcnt, hb.foldEmpty hcnt]
  rfl

/-- The first three bytes of a minimal frame, from reset. -/
theorem pushAll_reset_minimalHeader :
    Block.reset.pushAll [0xCC#8, 0x55#8, 0x0D#8] =
      some { Block.reset with
        buf := [(0, 0xCC#8), (1, 0x55#8), (2, 0x0D#8)], cnt := 3#8, crc := 0x9D#8 } := by
  decide +kernel

end Sys2Proof.Machine
end

section
/-! SUPPORT. The statements about the state (spec/10_state.md). -/

namespace Sys2Proof.Machine

/-- Settles O31: every operation of the block keeps R22, so every step does. -/
theorem stepKeepsTheInvariants : Obligations.StepKeepsTheInvariants := by
  unfold Obligations.StepKeepsTheInvariants
  exact fun _ _ => Block.inv_kept.step

/-- Settles O32: R22 holds after reset and along every run. -/
theorem reachableStatesMeetTheInvariants : Obligations.ReachableStatesMeetTheInvariants := by
  unfold Obligations.ReachableStatesMeetTheInvariants
  exact fun _ _ _ => Block.inv_kept.run_reset

/-- Settles O23, by all a PUSH can do. -/
theorem counterMoves : Obligations.CounterMoves := by
  unfold Obligations.CounterMoves
  intro x s t h
  obtain ⟨b, hb, rfl⟩ := exec_push_eq_next_iff.1 h
  rcases Block.push_cases hb with ⟨hc, rfl⟩ | ⟨hc, _, rfl⟩ | ⟨hc, _, _, _, _, rfl⟩ | ⟨hc, _, _, _, _, rfl⟩
  · exact .inr (.inr ⟨hc, hc, rfl, rfl⟩)
  · exact .inl ⟨hc, Block.append_cnt_toNat (b := s.blk.noEvent) hc x, rfl, rfl⟩
  · exact .inr (.inl ⟨hc, rfl, .inl rfl⟩)
  · exact .inr (.inl ⟨hc, rfl, .inr rfl⟩)

/-- Settles O24: RST and IDLE show no event, and PUSH writes consistent flags. -/
theorem eventFlagsAreWrittenEveryStep : Obligations.EventFlagsAreWrittenEveryStep := by
  unfold Obligations.EventFlagsAreWrittenEveryStep
  intro w s t h
  rcases decodeControl_cases w with ⟨_, v, d, hw⟩ | ⟨hpush, x, hw⟩ | ⟨_, d, hw⟩ <;> rw [hw] at h
  case inl =>
    cases h
    simp [Block.reset]
  case inr.inr =>
    cases h
    simp
  case inr.inl =>
    obtain ⟨b, hb, rfl⟩ := exec_push_eq_next_iff.1 h
    obtain ⟨hone, hcause, hclear⟩ := Block.push_flagsConsistent hb
    exact ⟨hone, by simp [hcause], fun he => ⟨hpush, hclear he⟩⟩

/-- Settles O26: of all an instruction can do, RST and an emitting PUSH alone write the record. -/
theorem recordWrittenOnlyByEmitOrReset : Obligations.RecordWrittenOnlyByEmitOrReset := by
  unfold Obligations.RecordWrittenOnlyByEmitOrReset
  refine fun i s t h => ⟨fun hne => ?written, fun x hi hdis => ?discards⟩
  case written =>
    rcases exec_cases h with ⟨v, d, rfl, _⟩ | ⟨_, _, rfl⟩ | ⟨x, _, rfl, hb, rfl⟩ | ⟨_, _, rfl⟩ |
      ⟨hport, _, _, hb, rfl⟩
    · exact .inl ⟨v, d, rfl⟩
    · exact absurd rfl hne
    · exact .inr (.inl ⟨x, rfl, Block.push_emits_of_record_ne hb hne⟩)
    · exact absurd rfl hne
    · exact .inr (.inr ⟨hport, Block.push_emits_of_record_ne hb hne⟩)
  case discards =>
    subst hi
    obtain ⟨b, hb, rfl⟩ := exec_push_eq_next_iff.1 h
    have hrec : b.evRec = false := by
      simpa using fun hr => (Block.push_flagsConsistent hb).oneEvent ⟨hr, hdis⟩
    exact Block.push_keeps_record hb hrec

/-- Settles O27: an emit sets RVLD, every other PUSH keeps it, and only RST clears it. -/
theorem rvldIsSticky : Obligations.RvldIsSticky := by
  unfold Obligations.RvldIsSticky
  refine ⟨rfl, fun i s t h => ⟨fun hv => ?stays, ?emits, ?keeps, ?clears⟩, fun s hs => hs.noRecord⟩
  case stays =>
    rcases exec_cases h with ⟨v, d, rfl, _⟩ | ⟨_, _, rfl⟩ | ⟨_, _, _, hb, rfl⟩ | ⟨_, _, rfl⟩ |
      ⟨_, _, _, hb, rfl⟩
    · exact .inr ⟨v, d, rfl⟩
    · exact .inl hv
    · exact .inl (Block.push_keeps_rvld hb hv)
    · exact .inl hv
    · exact .inl (Block.push_keeps_rvld hb hv)
  case emits =>
    rintro x rfl he
    obtain ⟨b, hb, rfl⟩ := exec_push_eq_next_iff.1 h
    exact Block.push_sets_rvld hb he
  case keeps =>
    rintro x rfl he
    obtain ⟨b, hb, rfl⟩ := exec_push_eq_next_iff.1 h
    exact (Block.push_keeps_record hb he).2
  case clears =>
    rintro v d rfl
    cases h
    rfl

/-- Settles O28: LOCK by its definition, then all an instruction can do in lock-up. -/
theorem lockEndsOnlyByReset : Obligations.LockEndsOnlyByReset := by
  unfold Obligations.LockEndsOnlyByReset
  refine ⟨fun s hlt => ?below, fun s len h3 hlen => ?byLength, fun i s t hs hl h => ?stays⟩
  case below =>
    rw [← Bool.not_eq_true, Block.lock_eq_true_iff]
    exact fun ⟨h3, _⟩ => BitVec.not_lt.2 h3 hlt
  case byLength => simp [Block.lock_eq_true_iff, h3, hlen]
  case stays =>
    rcases exec_cases h with ⟨v, d, rfl, _⟩ | ⟨_, _, rfl⟩ | ⟨_, _, _, hb, rfl⟩ | ⟨_, _, rfl⟩ |
      ⟨_, _, _, hb, rfl⟩
    · exact .inr ⟨v, d, rfl⟩
    · exact .inl ⟨hl, rfl, rfl⟩
    · exact .inl (Block.push_of_lock hb hl)
    · exact .inl ⟨hl, hs.noEvent_of_lock hl⟩
    · exact .inl (Block.push_of_lock hb hl)

/-- Settles O34: every operation of the block keeps the canonical form, so every step does. -/
theorem stepKeepsMemoryCanonical : Obligations.StepKeepsMemoryCanonical := by
  unfold Obligations.StepKeepsMemoryCanonical
  exact fun _ _ => Memory.wf_kept.step

/-- Settles O13, by evaluating the reset state. -/
theorem resetStateIsR23 : Obligations.ResetStateIsR23 := by
  unfold Obligations.ResetStateIsR23
  decide

/-- Settles O30: the base case of R22. -/
theorem resetMeetsTheInvariants : Obligations.ResetMeetsTheInvariants := by
  unfold Obligations.ResetMeetsTheInvariants
  exact Block.inv_kept.reset

/-- Settles O37: RD.STAT shows STAT, whose fields are its parts. -/
theorem readOfStatus : Obligations.ReadOfStatus := by
  unfold Obligations.ReadOfStatus
  exact ⟨rfl, fun s => ⟨s.blk.stat, shows_rdStat s, s.blk.stat_fields⟩, shows_rdStat State.reset⟩

/-- Settles O39: RD.DBG shows DBG; R22 clears it with an event; and the run of three PUSH words. -/
theorem readOfDebug : Obligations.ReadOfDebug := by
  unfold Obligations.ReadOfDebug
  refine ⟨rfl, fun s => ⟨s.blk.dbg, shows_rdDbg s, s.blk.dbg_cnt, s.blk.dbg_crc⟩,
    shows_rdDbg State.reset, fun s hs he => ?event, ?bytes⟩
  case event => exact hs.dbg_of_event he ▸ shows_rdDbg s
  case bytes => exact ⟨_, run_offerAll_pushWords (s := State.reset) pushAll_reset_minimalHeader, shows_rdDbg _⟩

/-- Settles O43: the outputs, field by field. -/
theorem outputsFollowTheState : Obligations.OutputsFollowTheState := by
  unfold Obligations.OutputsFollowTheState
  refine ⟨fun s => ⟨rfl, rfl, rfl, rfl, rfl⟩, fun s s' hblk hfsel => ?_⟩
  simp [State.outputs, State.fdata, hblk, hfsel]

end Sys2Proof.Machine
end

section
/-! SUPPORT. Runs of the block on control words, and what a step does not look at: the event flags, the
record registers and `RVLD` (R41, R44). -/

namespace Sys2Proof.Machine

/-- The event of the first step comes first, then those of the steps left. -/
theorem Block.feed_cons (w : ControlWord) (ws : List ControlWord) (b : Block) :
    b.feed (w :: ws) =
      (b.sample w).bind fun b' => (b'.feed ws).map fun p => (b'.events ++ p.1, p.2) := by
  rw [Block.feed]
  cases b.sample w with
  | none => rfl
  | some b' => cases h : b'.feed ws <;> simp [h]

@[simp] theorem Block.noEvent_noEvent (b : Block) : b.noEvent.noEvent = b.noEvent := rfl

@[simp] theorem Block.noEvent_events (b : Block) : b.noEvent.events = [] := rfl

/-- Every step first writes the event flags, so none reads them (R17). -/
@[simp] theorem Block.sample_noEvent (w : ControlWord) (b : Block) :
    b.noEvent.sample w = b.sample w := rfl

theorem Block.sample_of_isIdleWord {w : ControlWord} (h : isIdleWord w = true) (b : Block) :
    b.sample w = some b.noEvent := by
  obtain ⟨h9, h8⟩ : w.getLsbD 9 = false ∧ w.getLsbD 8 = false := by
    simpa only [isIdleWord, Bool.and_eq_true, Bool.not_eq_true'] using h
  rw [Block.sample, h9, h8]
  rfl

/-- A leading IDLE only clears the event flags (R72). -/
theorem Block.feed_cons_of_isIdleWord {w : ControlWord} (h : isIdleWord w = true)
    (ws : List ControlWord) (b : Block) : b.feed (w :: ws) = b.noEvent.feed ws := by
  simp [Block.feed_cons, Block.sample_of_isIdleWord h]

/-- What a run shows but for the event flags of the block it ends in. -/
def Block.feedNoEvent (ws : List ControlWord) (b : Block) : Option (List Event × Block) :=
  (b.feed ws).map fun p => (p.1, p.2.noEvent)

theorem Block.feedNoEvent_cons (w : ControlWord) (ws : List ControlWord) (b : Block) :
    b.feedNoEvent (w :: ws) =
      (b.sample w).bind fun b' => (b'.feedNoEvent ws).map fun p => (b'.events ++ p.1, p.2) := by
  simp [Block.feedNoEvent, Block.feed_cons, Option.map_bind, Function.comp_def]

/-- The event flags a run starts with are never seen in it. -/
theorem Block.feedNoEvent_noEvent (ws : List ControlWord) (b : Block) :
    b.noEvent.feedNoEvent ws = b.feedNoEvent ws := by
  cases ws with
  | nil => rfl
  | cons w ws => rw [Block.feedNoEvent_cons, Block.feedNoEvent_cons, Block.sample_noEvent]

theorem Block.feedNoEvent_filter_idle (ws : List ControlWord) (b : Block) :
    b.feedNoEvent ws = b.feedNoEvent (ws.filter fun w => !isIdleWord w) := by
  induction ws generalizing b with
  | nil => rfl
  | cons w ws ih =>
    cases hw : isIdleWord w with
    | true =>
      calc b.feedNoEvent (w :: ws)
        _ = b.noEvent.feedNoEvent ws := by
          rw [Block.feedNoEvent, Block.feed_cons_of_isIdleWord hw, Block.feedNoEvent]
        _ = b.feedNoEvent ws := Block.feedNoEvent_noEvent ws b
        _ = b.feedNoEvent ((w :: ws).filter fun w => !isIdleWord w) := by
          rw [ih, List.filter_cons_of_neg (by simp [hw])]
    | false =>
      rw [List.filter_cons_of_pos (by simp [hw]), Block.feedNoEvent_cons, Block.feedNoEvent_cons]
      simp only [← ih]

/-- The block without its past: only the bytes now being collected, their count and their fold. -/
def Block.forget (b : Block) : Block := { b with record := Record.zero, rvld := false }.noEvent

/-- At offset 0 nothing is collected, so a block without its past is the reset block (R79, R132). -/
theorem Block.AtOffset0.forget_eq_reset {b : Block} (h : b.AtOffset0) : b.forget = Block.reset := by
  obtain ⟨hbuf, hcnt, hcrc⟩ := h
  simp [Block.forget, Block.noEvent, Block.reset, hbuf, hcnt, hcrc]

/-- All of a block that the events of a run depend on: the event it shows now, and, for the events to
come, the block without its past. -/
def Block.view (b : Block) : List Event × Block := (b.events, b.forget)

/-- The verdict on a chunk, and the record it emits, come from the bytes collected alone (R76, R90). -/
theorem Block.judge_forget (x : Byte) (b : Block) :
    (b.forget.noEvent.append x).judge.map Block.view = (b.noEvent.append x).judge.map Block.view := by
  have hcauses : (b.forget.noEvent.append x).causes = (b.noEvent.append x).causes := rfl
  have hextract : (b.forget.noEvent.append x).extract = (b.noEvent.append x).extract := rfl
  rw [Block.judge, Block.judge, hcauses, hextract]
  cases (b.noEvent.append x).causes with
  | none => rfl
  | some c =>
    by_cases hc : c = 0x0#4
    · simp only [hc, if_true]
      cases (b.noEvent.append x).extract <;> rfl
    · simp only [hc, if_false]
      rfl

theorem Block.push_forget (x : Byte) (b : Block) :
    (b.forget.push x).map Block.view = (b.push x).map Block.view := by
  have hcnt : b.forget.cnt = b.cnt := rfl
  have hboundary : (b.forget.noEvent.append x).boundary = (b.noEvent.append x).boundary := rfl
  rw [Block.push, Block.push, hcnt, hboundary]
  by_cases hfull : b.cnt = Wired.cntMax
  · simp only [hfull, if_true]
    rfl
  · simp only [hfull, if_false]
    cases (b.noEvent.append x).boundary with
    | none => rfl
    | some fires =>
      cases fires with
      | false => rfl
      | true => exact Block.judge_forget x b

theorem Block.sample_forget (w : ControlWord) (b : Block) :
    (b.forget.sample w).map Block.view = (b.sample w).map Block.view := by
  unfold Block.sample
  split
  · rfl
  · split
    · exact Block.push_forget _ b
    · rfl

/-- The events of a run. -/
def Block.feedEvents (ws : List ControlWord) (b : Block) : Option (List Event) :=
  (b.feed ws).map Prod.fst

theorem Block.feedEvents_cons (w : ControlWord) (ws : List ControlWord) (b : Block) :
    b.feedEvents (w :: ws) =
      (b.sample w).bind fun b' => (b'.feedEvents ws).map (b'.events ++ ·) := by
  simp [Block.feedEvents, Block.feed_cons, Option.map_bind, Function.comp_def]

/-- The past of a block never shows in the events to come (R44). -/
theorem Block.feedEvents_forget (ws : List ControlWord) (b : Block) :
    b.forget.feedEvents ws = b.feedEvents ws := by
  induction ws generalizing b with
  | nil => rfl
  | cons w ws ih =>
    have hview (b : Block) : b.feedEvents (w :: ws) =
        ((b.sample w).map Block.view).bind fun p => (p.2.feedEvents ws).map (p.1 ++ ·) := by
      simp [Block.feedEvents_cons, Option.bind_map, Function.comp_def, Block.view, ih]
    rw [hview, hview, Block.sample_forget]

end Sys2Proof.Machine
end

section
/-! SUPPORT. An instruction under another code on `fsel` (R38). -/

namespace Sys2Proof.Machine

/-- A step operation on the block leaves the code on `fsel` as it finds it. -/
theorem State.onBlock_select {f : Block → Option Block} {s t : State} (h : s.onBlock f = .next t)
    (c : SelCode) : (s.select c).onBlock f = .next (t.select c) := by
  obtain ⟨b, hb, rfl⟩ := State.onBlock_eq_next_iff.1 h
  exact State.onBlock_eq_next_iff.2 ⟨b, hb, rfl⟩

/-- A step operation and a frame item do the same to the block and keep the code; a read writes its own
code over it. -/
theorem exec_select {i : Instr} {s t : State} (h : exec i s = .next t) (c : SelCode) :
    exec i (s.select c) = .next (t.select c) ∨ exec i (s.select c) = .next t := by
  cases i with
  | rst v d => exact .inl (State.onBlock_select (f := fun b => some b.rst) h c)
  | idle d => exact .inl (State.onBlock_select (f := fun b => some b.idle) h c)
  | push x => exact .inl (State.onBlock_select h c)
  | frame13 devId interval verOff val1 val2 status reserved checksum =>
    exact .inl (State.onBlock_select h c)
  | _ => exact .inr h

end Sys2Proof.Machine
end

section
/-! SUPPORT. The statements about the memory (spec/20_memory.md). -/

namespace Sys2Proof.Machine

/-- Settles O50, by induction on the control words: an IDLE step only clears the event flags, which no
step reads. -/
theorem idleStepsChangeNoEvent : Obligations.IdleStepsChangeNoEvent := by
  unfold Obligations.IdleStepsChangeNoEvent
  exact Block.feedNoEvent_filter_idle

/-- Settles O42: a step operation keeps the code on fsel, and a read writes over it. -/
theorem selectInputHasNoEffectOnState : Obligations.SelectInputHasNoEffectOnState := by
  unfold Obligations.SelectInputHasNoEffectOnState
  intro i c s t h
  rcases exec_select h c with ht | ht
  · exact ⟨_, ht, rfl, rfl⟩
  · exact ⟨_, ht, rfl, rfl⟩

/-- Settles O52: without their past both blocks are the reset block, and the past shows in no event. -/
theorem noAliasingAcrossAFrameBoundary : Obligations.NoAliasingAcrossAFrameBoundary := by
  unfold Obligations.NoAliasingAcrossAFrameBoundary
  intro ws b c hb hc
  calc b.feedEvents ws
    _ = b.forget.feedEvents ws := (Block.feedEvents_forget ws b).symm
    _ = c.forget.feedEvents ws := by rw [hb.forget_eq_reset, hc.forget_eq_reset]
    _ = c.feedEvents ws := Block.feedEvents_forget ws c

end Sys2Proof.Machine
end

section
/-! SUPPORT. The decoder and the encoder, port by port: each answer of the decoder is a well-formed
instruction, and the encoder gives the word back (R45, R50, R51). -/

namespace Sys2Proof.Machine

section
variable (r v : BitVec 1) (d : Byte)

@[simp] theorem controlWord_rst : (r ++ v ++ d).extractLsb' 9 1 = r := by
  rw [BitVec.extractLsb'_append_eq_of_le (by decide)]
  exact BitVec.extractLsb'_append_eq_left

@[simp] theorem controlWord_inValid : (r ++ v ++ d).extractLsb' 8 1 = v := by
  rw [BitVec.extractLsb'_append_eq_of_le (by decide)]
  exact BitVec.extractLsb'_append_eq_right

@[simp] theorem controlWord_inData : (r ++ v ++ d).extractLsb' 0 8 = d :=
  BitVec.extractLsb'_append_eq_right

/-- The operation of a control word, by its fields `rst` and `in_valid` (R50). -/
theorem decodeControl_fields :
    decodeControl (r ++ v ++ d) =
      if r = 1#1 then .rst v d else if v = 1#1 then .push d else .idle d := by
  rw [decodeControl, controlWord_rst, controlWord_inValid, controlWord_inData]

/-- A mask of `rst` and `in_valid` tests them alone (R50). -/
theorem controlWord_and_mask (mr mv : BitVec 1) :
    (r ++ v ++ d) &&& (mr ++ mv ++ 0x00#8) = (r &&& mr) ++ (v &&& mv) ++ 0x00#8 := by
  rw [BitVec.and_append, BitVec.and_append, BitVec.and_zero]

end

/-- A control word is its three fields put together (R46). -/
theorem exists_controlWord_fields (w : ControlWord) :
    ∃ (r v : BitVec 1) (d : Byte), w = r ++ v ++ d := by
  refine ⟨w.extractLsb' 9 1, w.extractLsb' 8 1, w.extractLsb' 0 8, ?_⟩
  rw [BitVec.extractLsb'_append_extractLsb'_eq_extractLsb' (by decide),
    BitVec.extractLsb'_append_extractLsb'_eq_extractLsb' (by decide)]
  exact BitVec.extractLsb'_eq_self.symm

theorem encode_decodeControl (w : ControlWord) : encode (decodeControl w) = .control w := by
  obtain ⟨r, v, d, rfl⟩ := exists_controlWord_fields w
  rw [decodeControl_fields]
  rcases BitVec.eq_zero_or_eq_one r with rfl | rfl
  · rcases BitVec.eq_zero_or_eq_one v with rfl | rfl <;> rfl
  · rfl

theorem encode_decodeSelect (c : SelCode) : encode (decodeSelect c) = .select c := by
  revert c
  decide

/-- A pair of bytes put together and taken apart again (R32). -/
@[simp] theorem bigEndian_append (hi lo : Byte) : bigEndian (hi ++ lo) = [hi, lo] := by
  rw [bigEndian, BitVec.extractLsb'_append_eq_left, BitVec.extractLsb'_append_eq_right]

/-- A 16-bit field taken apart and put together again (R32). -/
@[simp] theorem halves_append (v : Half) : v.extractLsb' 8 8 ++ v.extractLsb' 0 8 = v := by
  rw [BitVec.extractLsb'_append_extractLsb'_eq_extractLsb' (by decide)]
  exact BitVec.extractLsb'_eq_self

section
variable {len dev itv verH verL v1H v1L v2H v2L st k : Byte} {res more : List Byte}

/-- Length counts every byte of a frame that fits it (R45). -/
theorem lengthByte_toNat (h : 13 + res.length ≤ 255) :
    (BitVec.ofNat 8 (frameFixedBytes + res.length)).toNat = 13 + res.length := by
  rw [frameFixedBytes, BitVec.toNat_ofNat, Nat.mod_eq_of_lt (by omega)]

/-- The layout of a frame, its 16-bit fields given as their two bytes (R45). -/
theorem frameBytes_layout (hlen : len.toNat = 13 + res.length) :
    frameBytes dev itv (verH ++ verL) (v1H ++ v1L) (v2H ++ v2L) st res k =
      0xCC#8 :: 0x55#8 :: len :: dev :: itv :: verH :: verL :: v1H :: v1L :: v2H :: v2L :: st ::
        (res ++ [k]) := by
  have hbyte : BitVec.ofNat 8 (frameFixedBytes + res.length) = len := by
    rw [frameFixedBytes, ← hlen, BitVec.ofNat_toNat, BitVec.setWidth_eq]
  simp only [frameBytes, framePrefix, bigEndian_append, hbyte]
  rfl

/-- A frame at the head of a stream decodes to its fields, and leaves the bytes after it (R45). -/
theorem decodeFrame_layout (hlen : len.toNat = 13 + res.length) :
    decodeFrame (0xCC#8 :: 0x55#8 :: len :: dev :: itv :: verH :: verL :: v1H :: v1L :: v2H :: v2L ::
        st :: (res ++ k :: more)) =
      .ok (.frame13 dev itv (verH ++ verL) (v1H ++ v1L) (v2H ++ v2L) st res k, more) := by
  have hmin : ¬len < Wired.minLen := by
    rw [BitVec.lt_def, hlen]
    exact Nat.not_lt.2 (Nat.le_add_right 13 res.length)
  simp [decodeFrame, hmin, hlen, frameFixedBytes]

end

/-- Only a frame's word comes at the stream port, as the frame's bytes (R45). -/
theorem encode_eq_stream_iff {i : Instr} {bytes : List Byte} :
    encode i = .stream bytes ↔ ∃ dev itv ver v1 v2 st res k,
      i = .frame13 dev itv ver v1 v2 st res k ∧ bytes = frameBytes dev itv ver v1 v2 st res k := by
  constructor
  · intro h
    cases i with
    | frame13 dev itv ver v1 v2 st res k =>
      injection h with h
      exact ⟨dev, itv, ver, v1, v2, st, res, k, rfl, h.symm⟩
    | _ => cases h
  · rintro ⟨dev, itv, ver, v1, v2, st, res, k, rfl, rfl⟩
    rfl

theorem wellFormed_frame13_iff {dev itv : Byte} {ver v1 v2 : Half} {st : Byte} {res : List Byte}
    {k : Byte} : (Instr.frame13 dev itv ver v1 v2 st res k).wellFormed = true ↔ 13 + res.length ≤ 255 :=
  decide_eq_true_iff

/-- The frame at the head of a stream is the well-formed instruction whose word the stream begins with. -/
theorem decodeFrame_eq_ok_iff {bytes more : List Byte} {i : Instr} :
    decodeFrame bytes = .ok (i, more) ↔
      i.wellFormed = true ∧ ∃ frame, encode i = .stream frame ∧ bytes = frame ++ more := by
  constructor
  · intro h
    unfold decodeFrame at h
    split at h
    case h_2 => cases h
    case h_1 s1 s2 len dev itv verH verL v1H v1L v2H v2L st rest =>
      split_ifs at h with hs1 hs2 hmin
      obtain rfl := not_not.1 hs1
      obtain rfl := not_not.1 hs2
      split at h
      case h_1 => cases h
      case h_2 k more' hdrop =>
        cases h
        have hrest : rest = rest.take (len.toNat - frameFixedBytes) ++ k :: more := by
          rw [← hdrop, List.take_append_drop]
        have hlen : len.toNat = 13 + (rest.take (len.toNat - frameFixedBytes)).length := by
          have hdrop := congrArg List.length hdrop
          rw [BitVec.lt_def] at hmin
          simp [frameFixedBytes] at hdrop hmin ⊢
          omega
        exact ⟨wellFormed_frame13_iff.2 (hlen ▸ Nat.lt_succ_iff.1 len.isLt), _,
          congrArg StimulusWord.stream (frameBytes_layout hlen), by simp [← hrest]⟩
  · rintro ⟨hwf, frame, hframe, rfl⟩
    obtain ⟨dev, itv, ver, v1, v2, st, res, k, rfl, rfl⟩ := encode_eq_stream_iff.1 hframe
    have hlen := lengthByte_toNat (wellFormed_frame13_iff.1 hwf)
    rw [← halves_append ver, ← halves_append v1, ← halves_append v2, frameBytes_layout hlen]
    simpa only [List.cons_append, List.append_assoc, List.nil_append] using decodeFrame_layout hlen

/-- A stream item is decoded whole (R45). -/
theorem decode_stream_eq_ok_iff_decodeFrame {bytes : List Byte} {i : Instr} :
    decode (.stream bytes) = .ok i ↔ decodeFrame bytes = .ok (i, []) := by
  rw [decode]
  rcases decodeFrame bytes with _ | ⟨j, _ | ⟨_, _⟩⟩ <;> simp

theorem decode_stream_eq_ok_iff {bytes : List Byte} {i : Instr} :
    decode (.stream bytes) = .ok i ↔ i.wellFormed = true ∧ encode i = .stream bytes := by
  simp [decode_stream_eq_ok_iff_decodeFrame, decodeFrame_eq_ok_iff]

/-- Only a frame can be ill-formed (R45). -/
theorem wellFormed_of_encode_ne_stream {i : Instr} (h : ∀ bytes, encode i ≠ .stream bytes) :
    i.wellFormed = true := by
  cases i with
  | frame13 => exact absurd rfl (h _)
  | _ => rfl

theorem decode_encode {i : Instr} (h : i.wellFormed = true) : decode (encode i) = .ok i := by
  cases i with
  | rst v d => exact congrArg Except.ok (decodeControl_fields 1#1 v d)
  | idle d => exact congrArg Except.ok (decodeControl_fields 0#1 0#1 d)
  | push x => exact decode_encode_push x
  | frame13 => exact decode_stream_eq_ok_iff.2 ⟨h, rfl⟩
  | _ => rfl

theorem encode_of_decode {x : StimulusWord} {i : Instr} (h : decode x = .ok i) :
    i.wellFormed = true ∧ encode i = x := by
  cases x with
  | control w =>
    cases h
    exact ⟨wellFormed_of_encode_ne_stream (by simp [encode_decodeControl]), encode_decodeControl w⟩
  | select c =>
    cases h
    exact ⟨wellFormed_of_encode_ne_stream (by simp [encode_decodeSelect]), encode_decodeSelect c⟩
  | stream bytes => exact decode_stream_eq_ok_iff.1 h

/-- A stream as long as a minimal frame reaches the byte after the fields (R45). -/
theorem exists_frameFields_of_length {rest : List Byte} {n : Nat} (h : rest.length = n + 10) :
    ∃ dev itv verH verL v1H v1L v2H v2L st res k,
      rest = dev :: itv :: verH :: verL :: v1H :: v1L :: v2H :: v2L :: st :: (res ++ [k]) ∧
        res.length = n := by
  match rest, h with
  | dev :: itv :: verH :: verL :: v1H :: v1L :: v2H :: v2L :: st :: x :: xs, h =>
    refine ⟨dev, itv, verH, verL, v1H, v1L, v2H, v2L, st, (x :: xs).dropLast,
      (x :: xs).getLast (List.cons_ne_nil x xs), ?_, ?_⟩
    · rw [List.dropLast_append_getLast]
    · simpa using h

end Sys2Proof.Machine
end

section
/-! SUPPORT. What PUSH does in a state that meets R22: it completes, it appends where no chunk ends, and
the chunk it ends is emitted or discarded by its cause mask (R73 to R78). -/

namespace Sys2Proof.Machine

section
variable {b b' : Block} {x len : Byte}

theorem Block.Collecting.bytes_length (hb : b.Collecting) : b.buf.bytes.length = b.cnt.toNat := by
  have hlen := congrArg List.length hb.cells
  simpa [Memory.bytes] using hlen

/-- The cells held are those of a canonical buffer. -/
theorem Block.Collecting.pairwise (hb : b.Collecting) : b.buf.Pairwise fun p q => p.1 < q.1 := by
  have hrange := List.pairwise_lt_range (n := b.cnt.toNat)
  rwa [← hb.cells, List.pairwise_map] at hrange

/-- The byte at a frame offset is the byte at that place of the stream (R31). -/
theorem Block.Collecting.bytes_getElem? (hb : b.Collecting) (k : Nat) :
    b.buf.bytes[k]? = b.cell k := by
  have hplace {i : Nat} {p : Host.Cell} (hp : b.buf[i]? = some p) : p.1 = i := by
    have hi : (List.range b.cnt.toNat)[i]? = some p.1 := by rw [← hb.cells, List.getElem?_map, hp]; rfl
    rw [List.getElem?_eq_some_iff] at hi
    obtain ⟨hlt, hi⟩ := hi
    rw [← hi, List.getElem_range]
  ext v
  rw [Block.cell, Memory.read_eq_some_iff hb.pairwise, List.mem_iff_getElem?, Memory.bytes,
    List.getElem?_map, Option.map_eq_some_iff]
  constructor
  · rintro ⟨p, hp, rfl⟩
    exact ⟨k, by rw [hp, ← hplace hp]⟩
  · rintro ⟨i, hi⟩
    obtain rfl : k = i := hplace hi
    exact ⟨(k, v), hi, rfl⟩

/-- A cell below the count holds a value (R22 item 1). -/
theorem Block.Collecting.exists_cell (hb : b.Collecting) {k : Nat} (hk : k < b.cnt.toNat) :
    ∃ v, b.cell k = some v := by
  rw [← hb.bytes_length] at hk
  exact ⟨_, (hb.bytes_getElem? k).symm.trans (List.getElem?_eq_getElem hk)⟩

/-- After an append the cells up to the old count hold a value. -/
theorem Block.Collecting.exists_append_cell (hb : b.Collecting) (x : Byte) {k : Nat}
    (hk : k ≤ b.cnt.toNat) : ∃ v, (b.append x).cell k = some v := by
  rcases Nat.lt_or_eq_of_le hk with hlt | rfl
  · rw [Block.append_cell_other hlt.ne]
    exact hb.exists_cell hlt
  · exact ⟨x, Block.append_cell_same b x⟩

/-- With two bytes held or more, the declared length is the byte at offset 2 after the append (R43). -/
theorem Block.append_cell_two_eq_declaredWith (h : 2#8 ≤ b.cnt) :
    (b.append x).cell 2 = b.declaredWith x := by
  unfold Block.declaredWith
  split
  · next h2 => simpa [h2] using Block.append_cell_same b x
  · next h2 => exact Block.append_cell_two (by bv_omega) x

/-- The boundary signal after an append: it fires when the byte appended ends a chunk (R75). -/
theorem Block.append_boundary_eq_true_iff (hc : b.cnt ≠ 255#8) :
    (b.append x).boundary = some true ↔ ∃ len, b.endsChunk x len := by
  have hcnt (len : Byte) : b.cnt + 1 = len ↔ len.toNat = b.cnt.toNat + 1 := by bv_omega
  have htwo : ¬(b.append x).cnt < 3#8 ↔ 2#8 ≤ b.cnt := by
    rw [Block.append_cnt]
    bv_omega
  rw [Block.boundary_eq_some_iff, htwo]
  constructor
  · rintro (⟨_, hf⟩ | ⟨h2, len, hlen, heq⟩)
    · cases hf
    · exact ⟨len, h2, by rw [← Block.append_cell_two_eq_declaredWith h2, hlen],
        (hcnt len).1 (of_decide_eq_true heq.symm)⟩
  · rintro ⟨len, h2, hdecl, hlen⟩
    exact .inr ⟨h2, len, by rw [Block.append_cell_two_eq_declaredWith h2, hdecl],
      (decide_eq_true ((hcnt len).2 hlen)).symm⟩

/-- A chunk that ends declares a length, so the count is below 255 (R45). -/
theorem Block.endsChunk.cnt_ne (h : b.endsChunk x len) : b.cnt ≠ 255#8 := by
  obtain ⟨_, _, hlen⟩ := h
  bv_omega

/-- The validity check of the chunk that a byte ends (R76). -/
theorem Block.endsChunk.causes_eq_some_iff (h : b.endsChunk x len) {c : CauseMask} :
    (b.append x).causes = some c ↔ ∃ b0 b1, b.cell 0 = some b0 ∧ b.cell 1 = some b1 ∧
      c = causeMask b0 b1 len (checksum8 b.crc x) := by
  obtain ⟨h2, hdecl, _⟩ := h
  rw [Block.causes_eq_some_iff, Block.append_cell_two_eq_declaredWith h2, hdecl,
    Block.append_cell_other (k := 0) (by bv_omega), Block.append_cell_other (k := 1) (by bv_omega)]
  simp

/-- A field at the lower offsets can be read when the chunk declares more bytes (R90). -/
theorem Block.Collecting.exists_append_cellPair (hb : b.Collecting) (x : Byte) {k : Nat}
    (hk : k + 1 ≤ b.cnt.toNat) : ∃ v, (b.append x).cellPair k = some v := by
  obtain ⟨hi, hhi⟩ := hb.exists_append_cell x (Nat.le_of_succ_le hk)
  obtain ⟨lo, hlo⟩ := hb.exists_append_cell x hk
  exact ⟨_, Block.cellPair_eq_some_iff.2 ⟨hi, lo, hhi, hlo, rfl⟩⟩

/-- The extractor reads no cell above offset 11, so it answers from the twelfth byte on (R90). -/
theorem Block.Collecting.exists_append_extract (hb : b.Collecting) (x : Byte) (hk : 11 ≤ b.cnt.toNat) :
    ∃ r, (b.append x).extract = some r := by
  obtain ⟨len, hlen⟩ := hb.exists_append_cell x (k := 2) (by omega)
  obtain ⟨devId, hdev⟩ := hb.exists_append_cell x (k := 3) (by omega)
  obtain ⟨interval, hitv⟩ := hb.exists_append_cell x (k := 4) (by omega)
  obtain ⟨verOff, hver⟩ := hb.exists_append_cellPair x (k := 5) (by omega)
  obtain ⟨val1, hv1⟩ := hb.exists_append_cellPair x (k := 7) (by omega)
  obtain ⟨val2, hv2⟩ := hb.exists_append_cellPair x (k := 9) (by omega)
  obtain ⟨status, hst⟩ := hb.exists_append_cell x (k := 11) hk
  exact ⟨⟨len, devId, interval, verOff, val1, val2, status⟩,
    Block.extract_eq_some_iff.2 ⟨hlen, hdev, hitv, hver, hv1, hv2, hst⟩⟩

/-- The chunk that a byte ends can be judged: its first three cells are held, and a chunk without a cause
bit is long enough for the extractor (R76, R90). -/
theorem Block.Collecting.exists_append_judge (hb : b.Collecting) (h : b.endsChunk x len) :
    ∃ b', (b.append x).judge = some b' := by
  have ⟨h2, _, hlen⟩ := h
  obtain ⟨b0, hb0⟩ := hb.exists_cell (k := 0) (by bv_omega)
  obtain ⟨b1, hb1⟩ := hb.exists_cell (k := 1) (by bv_omega)
  rw [Block.judge, h.causes_eq_some_iff.2 ⟨b0, b1, hb0, hb1, rfl⟩]
  by_cases hc : causeMask b0 b1 len (checksum8 b.crc x) = 0x0#4
  · obtain ⟨_, _, _, hmin⟩ := causeMask_eq_zero_iff.1 hc
    obtain ⟨r, hr⟩ := hb.exists_append_extract x (by bv_omega)
    simp only [hc, if_true, hr]
    exact ⟨_, rfl⟩
  · simp only [hc, if_false]
    exact ⟨_, rfl⟩

/-- The boundary signal after an append can be computed (R75). -/
theorem Block.Collecting.exists_append_boundary (hb : b.Collecting) (x : Byte) :
    ∃ fires, (b.append x).boundary = some fires := by
  by_cases h3 : (b.append x).cnt < 3#8
  · exact ⟨false, Block.boundary_eq_some_iff.2 (.inl ⟨h3, rfl⟩)⟩
  · obtain ⟨len, hlen⟩ := hb.exists_append_cell x (k := 2) (by rw [Block.append_cnt] at h3; bv_omega)
    exact ⟨_, Block.boundary_eq_some_iff.2 (.inr ⟨h3, len, hlen, rfl⟩)⟩

/-- PUSH reads no cell that holds no value (R70, R110). -/
theorem Block.Collecting.exists_push (hb : b.Collecting) (x : Byte) : ∃ b', b.push x = some b' := by
  unfold Block.push
  split
  · exact ⟨_, rfl⟩
  · next hc =>
    obtain ⟨fires, hf⟩ := hb.noEvent.exists_append_boundary x
    cases fires with
    | false => exact ⟨_, by rw [hf]⟩
    | true =>
      obtain ⟨len, hlen⟩ := (Block.append_boundary_eq_true_iff (b := b.noEvent) hc).1 hf
      rw [hf]
      exact hb.noEvent.exists_append_judge hlen

/-- A PUSH that ends no chunk appends its byte (R74). -/
theorem Block.push_of_endsNoChunk (h : b.push x = some b') (hc : b.cnt ≠ 255#8)
    (hn : b.endsNoChunk x) : b' = b.noEvent.append x := by
  have hquiet : (b.noEvent.append x).boundary ≠ some true := fun ht => by
    obtain ⟨len, hlen⟩ := (Block.append_boundary_eq_true_iff (b := b.noEvent) hc).1 ht
    exact hn len hlen
  rcases Block.push_cases h with ⟨hfull, _⟩ | ⟨_, _, rfl⟩ | ⟨_, ht, _⟩ | ⟨_, ht, _⟩
  · exact absurd hfull hc
  · rfl
  · exact absurd ht hquiet
  · exact absurd ht hquiet

/-- A PUSH that ends a chunk judges it by its first two bytes, its declared length and its fold: it is
emitted when no cause bit is set, and discarded otherwise (R76 to R78). -/
theorem Block.push_of_endsChunk (h : b.push x = some b') (he : b.endsChunk x len) :
    ∃ b0 b1 c, b.cell 0 = some b0 ∧ b.cell 1 = some b1 ∧ c = causeMask b0 b1 len (checksum8 b.crc x) ∧
      ((c = 0x0#4 ∧ ∃ r, (b.noEvent.append x).extract = some r ∧ b' = (b.noEvent.append x).emit r) ∨
        (c ≠ 0x0#4 ∧ b' = (b.noEvent.append x).discard c)) := by
  have hcauses {c : CauseMask} := (show b.noEvent.endsChunk x len from he).causes_eq_some_iff (c := c)
  have hfires := (Block.append_boundary_eq_true_iff (b := b.noEvent) he.cnt_ne).2 ⟨len, he⟩
  rcases Block.push_cases h with ⟨hfull, _⟩ | ⟨_, hf, _⟩ | ⟨_, _, hc, r, hr, rfl⟩ | ⟨_, _, c, hne, hc, rfl⟩
  · exact absurd hfull he.cnt_ne
  · cases hfires.symm.trans hf
  · obtain ⟨b0, b1, h0, h1, hmask⟩ := hcauses.1 hc
    exact ⟨b0, b1, _, h0, h1, hmask, .inl ⟨rfl, r, hr, rfl⟩⟩
  · obtain ⟨b0, b1, h0, h1, hmask⟩ := hcauses.1 hc
    exact ⟨b0, b1, c, h0, h1, hmask, .inr ⟨hne, rfl⟩⟩

/-- With two bytes held, the fold is that of the cells 0 and 1 (R22 items 1 and 2). -/
theorem Block.Collecting.crc_of_two_bytes (hb : b.Collecting) (h2 : b.cnt = 2#8) {b0 b1 : Byte}
    (h0 : b.cell 0 = some b0) (h1 : b.cell 1 = some b1) : b.crc = checksumFrame [b0, b1] := by
  have hlen : b.buf.bytes.length = 2 := by rw [hb.bytes_length, h2]; rfl
  obtain ⟨a0, a1, hbytes⟩ := List.length_eq_two.1 hlen
  rw [← hb.bytes_getElem?, hbytes] at h0 h1
  cases h0
  cases h1
  rw [hb.fold, hbytes]

end

/-- The third byte is the declared length, so it ends a chunk only when it is 3 (R43, R75). -/
theorem Block.endsChunk_third_iff {b : Block} (h2 : b.cnt = 2#8) {x len : Byte} :
    b.endsChunk x len ↔ x = len ∧ len = 3#8 := by
  have hdecl : b.declaredWith x = some x := if_pos h2
  rw [Block.endsChunk, hdecl, h2, Option.some_inj]
  constructor
  · rintro ⟨_, hx, hlen⟩
    exact ⟨hx, BitVec.eq_of_toNat_eq hlen⟩
  · rintro ⟨hx, rfl⟩
    exact ⟨by decide, hx, rfl⟩

/-- The bits of a cause mask, from bit 0 up (R111). -/
theorem causeMask_bits (b0 b1 len fold : Byte) :
    (causeMask b0 b1 len fold).getLsbD 0 = decide (b0 ≠ 0xCC#8) ∧
    (causeMask b0 b1 len fold).getLsbD 1 = decide (b1 ≠ 0x55#8) ∧
    (causeMask b0 b1 len fold).getLsbD 2 = decide (fold ≠ 0x00#8) ∧
    (causeMask b0 b1 len fold).getLsbD 3 = decide (len < 13#8) := by
  refine ⟨?sync1, ?sync2, ?cksum, ?short⟩
  case sync1 => exact getLsbD_appendBit_zero
  case sync2 => exact getLsbD_appendBit_succ.trans getLsbD_appendBit_zero
  case cksum =>
    exact getLsbD_appendBit_succ.trans (getLsbD_appendBit_succ.trans getLsbD_appendBit_zero)
  case short =>
    refine getLsbD_appendBit_succ.trans (getLsbD_appendBit_succ.trans (getLsbD_appendBit_succ.trans ?_))
    simp

end Sys2Proof.Machine
end

section
/-! SUPPORT. A frame offered as one item (R59), and the word of an 8-bit field (R49). -/

namespace Sys2Proof.Machine

theorem zext16_eq_zeroExtend (v : Byte) : zext16 v = v.zeroExtend 16 :=
  (BitVec.setWidth_eq_append (by decide)).symm

section
variable {dev itv : Byte} {ver v1 v2 : Half} {st k : Byte} {res : List Byte}

/-- A frame item is the step taken with the PUSH words of its bytes at the head of the stimulus (R59). -/
theorem exec_frame13_eq_step (s : State) :
    exec (.frame13 dev itv ver v1 v2 st res k) s =
      step (s.offerAll (pushWords (frameBytes dev itv ver v1 v2 st res k))) :=
  (step_offerAll_pushWords 0xCC#8 (frameBytes dev itv ver v1 v2 st res k).tail s).symm

/-- So is the step that takes the frame's word from the stimulus, when it fits its Length (R45). -/
theorem step_offer_frame13 (h : 13 + res.length ≤ 255) (s : State) :
    step (s.offer (encode (.frame13 dev itv ver v1 v2 st res k))) =
      step (s.offerAll (pushWords (frameBytes dev itv ver v1 v2 st res k))) :=
  (step_of_decode_ok (State.fetch_offer s _) (decode_encode (wellFormed_frame13_iff.2 h))).trans
    (exec_frame13_eq_step s)

end

/-- A run depends on its first state only through the first step. -/
theorem core_run_succ_congr {s t : State} (h : step s = step t) (n : Nat) :
    Sys2Proof.core.run (n + 1) s = Sys2Proof.core.run (n + 1) t := by
  have hcore : Sys2Proof.core.step s = Sys2Proof.core.step t := h
  simp only [Host.Core.run, hcore]

end Sys2Proof.Machine
end

section
/-! SUPPORT. The statements about the encoding (spec/30_encoding.md). -/

namespace Sys2Proof.Machine

/-- Settles O3, by the constructors of the instruction. -/
theorem decodeOfEncode : Obligations.DecodeOfEncode := by
  unfold Obligations.DecodeOfEncode
  exact fun _ => decode_encode

/-- Settles O4, by the ports of the word. -/
theorem encodeOfDecode : Obligations.EncodeOfDecode := by
  unfold Obligations.EncodeOfDecode
  exact fun _ _ => encode_of_decode

/-- Settles O5: what decodes is the word of a well-formed frame, and a list of that layout is one. -/
theorem streamItemDecodesExactlyWhenAFrame : Obligations.StreamItemDecodesExactlyWhenAFrame := by
  unfold Obligations.StreamItemDecodesExactlyWhenAFrame
  refine fun bytes => ⟨?isFrame, ?decodes⟩
  case isFrame =>
    rintro ⟨i, hi⟩
    obtain ⟨hwf, henc⟩ := decode_stream_eq_ok_iff.1 hi
    obtain ⟨dev, itv, ver, v1, v2, st, res, k, rfl, rfl⟩ := encode_eq_stream_iff.1 henc
    have hlen := lengthByte_toNat (wellFormed_frame13_iff.1 hwf)
    refine ⟨_, _, rfl, hlen.trans ?_, ?_⟩
    · simp [frameBytes, framePrefix, bigEndian]
      omega
    · omega
  case decodes =>
    rintro ⟨len, rest, rfl, hlen, hmin⟩
    have hrest : rest.length = (len.toNat - 13) + 10 := by
      simp at hlen
      omega
    obtain ⟨dev, itv, verH, verL, v1H, v1L, v2H, v2L, st, res, k, rfl, hres⟩ :=
      exists_frameFields_of_length hrest
    exact ⟨_, decode_stream_eq_ok_iff_decodeFrame.2 (decodeFrame_layout (by omega))⟩

/-- Settles O21: the chunk ends at a length byte of 3 alone; any other byte is appended. -/
theorem lengthByteDecidesTheChunk : Obligations.LengthByteDecidesTheChunk := by
  unfold Obligations.LengthByteDecidesTheChunk
  intro x s hs h2
  obtain ⟨hbuf, _, _⟩ := Block.inv_iff.1 hs
  obtain ⟨b, hb⟩ := hbuf.exists_push x
  have happend (hx : x ≠ 3#8) : b = s.blk.noEvent.append x :=
    Block.push_of_endsNoChunk hb (by rw [h2]; decide) fun len he => by
      obtain ⟨rfl, rfl⟩ := (Block.endsChunk_third_iff h2).1 he
      exact hx rfl
  have hcnt : (s.blk.noEvent.append x).cnt = 3#8 := by simp [h2]
  have hlength : (s.blk.noEvent.append x).cell 2 = some x := by
    simpa [h2] using Block.append_cell_same s.blk.noEvent x
  have hlock : (s.blk.noEvent.append x).lock = true ↔ x < 3#8 := by
    rw [Block.lock_eq_true_iff, hcnt, hlength]
    simp
  refine ⟨_, exec_push_eq_next_iff.2 ⟨b, hb, rfl⟩, fun hx => ?below, fun hx => ?three, fun hx => ?above⟩
  case below =>
    obtain rfl := happend (by bv_omega)
    exact ⟨hlock.2 hx, rfl, rfl, hcnt⟩
  case three =>
    subst hx
    obtain ⟨b0, b1, c, h0, h1, hmask, ⟨rfl, _⟩ | ⟨_, rfl⟩⟩ :=
      Block.push_of_endsChunk hb ((Block.endsChunk_third_iff h2).2 ⟨rfl, rfl⟩)
    · obtain ⟨_, _, _, hmin⟩ := causeMask_eq_zero_iff.1 hmask.symm
      exact absurd (by decide) hmin
    · obtain ⟨-, -, -, hshort⟩ := causeMask_bits b0 b1 3#8 (checksum8 s.blk.crc 3#8)
      refine ⟨rfl, rfl, hmask ▸ hshort, rfl, fun hcc h55 => ?_⟩
      obtain rfl := Option.some.inj (h0.symm.trans hcc)
      obtain rfl := Option.some.inj (h1.symm.trans h55)
      rw [Block.discard_dcause, hmask, hbuf.crc_of_two_bytes h2 h0 h1]
      decide +kernel
  case above =>
    obtain rfl := happend (by bv_omega)
    exact ⟨by rw [← Bool.not_eq_true, hlock]; bv_omega, rfl, rfl, hcnt⟩

/-- Settles O22: the chunk is judged by its cause mask. -/
theorem endedChunkIsEmittedOrDiscarded : Obligations.EndedChunkIsEmittedOrDiscarded := by
  unfold Obligations.EndedChunkIsEmittedOrDiscarded
  intro x len s t _ he h
  obtain ⟨b, hb, rfl⟩ := exec_push_eq_next_iff.1 h
  obtain ⟨b0, b1, c, h0, h1, rfl, hjudge⟩ := Block.push_of_endsChunk hb he
  have hgood : causeMask b0 b1 len (checksum8 s.blk.crc x) = 0x0#4 ↔
      s.blk.cell 0 = some 0xCC#8 ∧ s.blk.cell 1 = some 0x55#8 ∧ checksum8 s.blk.crc x = 0x00#8 ∧
        13#8 ≤ len := by
    rw [causeMask_eq_zero_iff, h0, h1, BitVec.not_lt, Option.some_inj, Option.some_inj]
  obtain ⟨-, -, -, hshort⟩ := causeMask_bits b0 b1 len (checksum8 s.blk.crc x)
  rcases hjudge with ⟨hc, r, _, rfl⟩ | ⟨hc, rfl⟩
  case inl =>
    refine ⟨iff_of_true rfl (hgood.1 hc), rfl, fun hlt => ?_⟩
    obtain ⟨_, _, _, hmin⟩ := hgood.1 hc
    exact absurd hlt (BitVec.not_lt.2 hmin)
  case inr =>
    exact ⟨iff_of_false Bool.false_ne_true (hc ∘ hgood.2), rfl,
      fun hlt => ⟨rfl, hshort.trans (decide_eq_true hlt)⟩⟩

/-- Settles O44: PUSH of the first byte completes and keeps R22. -/
theorem frameCompletes : Obligations.FrameCompletes := by
  unfold Obligations.FrameCompletes
  intro devId interval verOff val1 val2 status reserved k s hs
  obtain ⟨hbuf, _, _⟩ := Block.inv_iff.1 hs
  obtain ⟨b, hb⟩ := hbuf.exists_push 0xCC#8
  exact ⟨_, State.pushBytes_cons_eq_next_iff.2 ⟨b, hb, rfl⟩, Block.inv_kept.push hs hb, rfl, rfl,
    exec_push_eq_next_iff.2 ⟨b, hb, rfl⟩⟩

/-- Settles O45: both words make the same first step, and a run goes on from there. -/
theorem frameIsItsPushes : Obligations.FrameIsItsPushes := by
  unfold Obligations.FrameIsItsPushes
  refine ⟨fun _ _ _ _ _ _ _ _ s => exec_frame13_eq_step s, fun _ _ _ _ _ _ _ _ s n hfits => ?_⟩
  exact core_run_succ_congr (step_offer_frame13 hfits s) n

/-- Settles O1, by running the decoder. -/
theorem spelledOutWordsDecode : Obligations.SpelledOutWordsDecode := by
  unfold Obligations.SpelledOutWordsDecode
  exact ⟨rfl, rfl, rfl, rfl, rfl, rfl, rfl⟩

/-- Settles O2: the two masks test `rst` and `in_valid`, so the four values of these bits decide. -/
theorem everyControlWordIsOneOperation : Obligations.EveryControlWordIsOneOperation := by
  unfold Obligations.EveryControlWordIsOneOperation
  intro w
  obtain ⟨r, v, d, rfl⟩ := exists_controlWord_fields w
  have hrst : (r ++ v ++ d) &&& 0x200#10 = (r &&& 1#1) ++ (v &&& 0#1) ++ 0x00#8 :=
    controlWord_and_mask r v d 1#1 0#1
  have hboth : (r ++ v ++ d) &&& 0x300#10 = (r &&& 1#1) ++ (v &&& 1#1) ++ 0x00#8 :=
    controlWord_and_mask r v d 1#1 1#1
  rw [hrst, hboth, decode, decodeControl_fields, controlWord_inValid, controlWord_inData]
  rcases BitVec.eq_zero_or_eq_one r with rfl | rfl <;>
    rcases BitVec.eq_zero_or_eq_one v with rfl | rfl <;> simp

/-- Settles O15: neither meaning looks at the operands that stand for the ignored bits. -/
theorem ignoredControlBitsHaveNoEffect : Obligations.IgnoredControlBitsHaveNoEffect := by
  unfold Obligations.IgnoredControlBitsHaveNoEffect
  exact ⟨fun _ _ _ _ _ => rfl, fun _ _ _ => rfl⟩

/-- Settles O41: the mux, code by code. -/
theorem muxMap : Obligations.MuxMap := by
  unfold Obligations.MuxMap
  rintro ⟨b, ⟨⟨c, hc⟩⟩, ws⟩
  simp only [← zext16_eq_zeroExtend]
  interval_cases c <;> rfl

/-- Settles O55: a word placed is the word fetched next, and the decoder answers for it. -/
theorem fetchedTableWordRunsNext : Obligations.FetchedTableWordRunsNext := by
  unfold Obligations.FetchedTableWordRunsNext
  intro s nbits w
  rw [decodeTableWord, State.withFetchWord]
  cases hd : decode (tableWord nbits w) with
  | ok i =>
    refine ⟨fun j hj => ?_, fun hnone => nomatch hnone⟩
    obtain rfl := Option.some.inj hj
    exact step_of_decode_ok (State.fetch_offer s _) hd
  | error why =>
    exact ⟨fun i hi => (nomatch hi), fun _ => ⟨why, step_of_decode_error (State.fetch_offer s _) hd⟩⟩

end Sys2Proof.Machine
end

section
/-! SUPPORT. The algebra of the checksum: each iteration is linear over exclusive or and one-to-one, so
CK8 is (R63), the fold is linear, and one changed byte always changes it (R62, R66). -/

namespace Sys2Proof.Machine

section
variable {s s' d d' v w x y : Byte}

/-- An iteration bit by bit: a shift register with POLY fed back from the low bit (R60). -/
theorem crcShift_getLsbD {i : Nat} :
    (crcShift v).getLsbD i = (v.getLsbD (i + 1) ^^ (v.getLsbD 0 && Wired.poly.getLsbD i)) := by
  unfold crcShift
  cases h0 : v.getLsbD 0 <;> simp [Nat.add_comm]

theorem crcShift_xor : crcShift (v ^^^ w) = crcShift v ^^^ crcShift w := by
  refine BitVec.eq_of_getLsbD_eq fun i _ => ?_
  simp only [crcShift_getLsbD, BitVec.getLsbD_xor, Bool.and_xor_distrib_right, Bool.xor_assoc,
    Bool.xor_left_comm]

/-- Bit 7 of what an iteration gives is the low bit it starts with, and the other bits then follow. -/
theorem crcShift_eq_zero_iff : crcShift v = 0x00#8 ↔ v = 0x00#8 := by
  refine ⟨fun h => ?_, fun h => by rw [h]; rfl⟩
  have hbit (i : Nat) : (v.getLsbD (i + 1) ^^ (v.getLsbD 0 && Wired.poly.getLsbD i)) = false := by
    rw [← crcShift_getLsbD, h, BitVec.getLsbD_zero]
  have hlow : v.getLsbD 0 = false := by
    have hpoly : Wired.poly.getLsbD 7 = true := by decide
    have h8 : v.getLsbD 8 = false := BitVec.getLsbD_of_ge v 8 (le_refl 8)
    simpa only [hpoly, h8, Bool.and_true, Bool.false_xor] using hbit 7
  refine BitVec.eq_of_getLsbD_eq fun i _ => ?_
  cases i with
  | zero => exact hlow
  | succ i => simpa only [hlow, Bool.false_and, Bool.xor_false, BitVec.getLsbD_zero] using hbit i

theorem crcShift_injective : Function.Injective crcShift := fun v w h => by
  rwa [← BitVec.xor_eq_zero_iff, ← crcShift_xor, crcShift_eq_zero_iff, BitVec.xor_eq_zero_iff] at h

theorem checksum8_eq_iterate (s d : Byte) : checksum8 s d = crcShift^[8] (s ^^^ d) := rfl

/-- Seed and data matter through their exclusive or alone, and CK8 is one-to-one in it. -/
theorem checksum8_inj : checksum8 s d = checksum8 s' d' ↔ s ^^^ d = s' ^^^ d' :=
  (crcShift_injective.iterate 8).eq_iff

theorem checksum8_zero_zero : checksum8 0x00#8 0x00#8 = 0x00#8 := by decide

theorem checksum8_eq_zero_iff : checksum8 s d = 0x00#8 ↔ s = d := by
  rw [← checksum8_zero_zero, checksum8_inj, BitVec.xor_self, BitVec.xor_eq_zero_iff]

theorem checksum8_xor (s s' d d' : Byte) :
    checksum8 (s ^^^ s') (d ^^^ d') = checksum8 s d ^^^ checksum8 s' d' := by
  have hpairs : s ^^^ s' ^^^ (d ^^^ d') = s ^^^ d ^^^ (s' ^^^ d') := by ac_rfl
  simp only [checksum8, hpairs, crcShift_xor]

/-- CK8 of the seed 0 is linear (R63 item 2). -/
theorem checksum8_zero_xor (x y : Byte) :
    checksum8 0x00#8 (x ^^^ y) = checksum8 0x00#8 x ^^^ checksum8 0x00#8 y :=
  checksum8_xor 0x00#8 0x00#8 x y

theorem checksum8_zero_bijective : Function.Bijective (checksum8 0x00#8) :=
  Finite.injective_iff_bijective.1 fun _ _ h => (BitVec.xor_right_inj _).1 (checksum8_inj.1 h)

/-- The fold is zero exactly when the last byte is the fold of the bytes before it (R62). -/
theorem checksumFrame_concat_eq_zero_iff {p : List Byte} {k : Byte} :
    checksumFrame (p ++ [k]) = 0x00#8 ↔ k = checksumFrame p := by
  rw [checksumFrame_concat, checksum8_eq_zero_iff, eq_comm]

theorem foldl_checksum8_zipWith_xor {f e : List Byte} (h : e.length = f.length) (s s' : Byte) :
    (List.zipWith (· ^^^ ·) f e).foldl checksum8 (s ^^^ s') =
      f.foldl checksum8 s ^^^ e.foldl checksum8 s' := by
  induction f generalizing e s s' with
  | nil =>
    obtain rfl := List.length_eq_zero_iff.1 h
    rfl
  | cons x f ih =>
    cases e with
    | nil => cases h
    | cons y e =>
      rw [List.zipWith_cons_cons, List.foldl_cons, checksum8_xor]
      exact ih (Nat.succ.inj h) _ _

/-- The fold is linear over exclusive or (R66). -/
theorem checksumFrame_zipWith_xor {f e : List Byte} (h : e.length = f.length) :
    checksumFrame (List.zipWith (· ^^^ ·) f e) = checksumFrame f ^^^ checksumFrame e :=
  foldl_checksum8_zipWith_xor h 0x00#8 0x00#8

/-- Bytes folded in after two seeds never bring the two folds together. -/
theorem foldl_checksum8_inj {f : List Byte} :
    f.foldl checksum8 s = f.foldl checksum8 s' ↔ s = s' := by
  induction f generalizing s s' with
  | nil => rfl
  | cons x f ih => rw [List.foldl_cons, List.foldl_cons, ih, checksum8_inj, BitVec.xor_left_inj]

/-- Two sequences that differ in one byte differ in the fold. -/
theorem checksumFrame_append_cons_inj {p q : List Byte} :
    checksumFrame (p ++ x :: q) = checksumFrame (p ++ y :: q) ↔ x = y := by
  simp only [checksumFrame, List.foldl_append, List.foldl_cons, foldl_checksum8_inj, checksum8_inj,
    BitVec.xor_right_inj]

theorem checksumFrame_modify_ne {f : List Byte} {j : Nat} {g : Byte → Byte} (hj : j < f.length)
    (hg : g f[j] ≠ f[j]) : checksumFrame (f.modify j g) ≠ checksumFrame f := by
  have hsplit : f = f.take j ++ f[j] :: f.drop (j + 1) := by simp
  rw [List.modify_eq_take_cons_drop hj]
  conv => rhs; rw [hsplit]
  exact checksumFrame_append_cons_inj.not.2 hg

theorem checksumFrame_replicate_zero (n : Nat) :
    checksumFrame (List.replicate n 0x00#8) = 0x00#8 := by
  induction n with
  | zero => rfl
  | succ n ih => rw [List.replicate_succ', checksumFrame_concat, ih, checksum8_zero_zero]

theorem xor_ne_self_of_ne_zero {e : Byte} (he : e ≠ 0x00#8) : x ^^^ e ≠ x := fun h =>
  he ((BitVec.xor_right_inj x).1 (h.trans BitVec.xor_zero.symm))

theorem singleBit_ne_zero (k : Fin 8) : 1#8 <<< k.val ≠ 0x00#8 := by
  revert k
  decide

end

end Sys2Proof.Machine
end

section
/-! SUPPORT. CK8 from its values on the bytes with one bit set (R63 items 2, 4 and 5). -/

namespace Sys2Proof.Machine

/-- The byte `c` if the bit `p` is set, and no bit otherwise: one term of a sum over exclusive or. -/
def ifBit (p : Bool) (c : Byte) : Byte := if p then c else 0x00#8

theorem ifBit_getLsbD (p : Bool) (c : Byte) (i : Nat) :
    (ifBit p c).getLsbD i = (p && c.getLsbD i) := by
  cases p
  · exact BitVec.getLsbD_zero
  · rfl

theorem checksum8_ifBit (p : Bool) (c : Byte) :
    checksum8 0x00#8 (ifBit p c) = ifBit p (checksum8 0x00#8 c) := by
  cases p
  · exact checksum8_zero_zero
  · rfl

/-- A byte is the sum of its bits. -/
theorem eq_xor_ifBit (x : Byte) :
    x = ifBit (x.getLsbD 0) 0x01#8 ^^^ ifBit (x.getLsbD 1) 0x02#8 ^^^ ifBit (x.getLsbD 2) 0x04#8 ^^^
      ifBit (x.getLsbD 3) 0x08#8 ^^^ ifBit (x.getLsbD 4) 0x10#8 ^^^ ifBit (x.getLsbD 5) 0x20#8 ^^^
      ifBit (x.getLsbD 6) 0x40#8 ^^^ ifBit (x.getLsbD 7) 0x80#8 := by
  refine BitVec.eq_of_getLsbD_eq fun i hi => ?_
  simp only [BitVec.getLsbD_xor, ifBit_getLsbD]
  interval_cases i <;> simp

theorem checksum8_singleBit :
    [0x01#8, 0x02#8, 0x04#8, 0x08#8, 0x10#8, 0x20#8, 0x40#8, 0x80#8].map (checksum8 0x00#8) =
      [0x5E#8, 0xBC#8, 0x61#8, 0xC2#8, 0x9D#8, 0x23#8, 0x46#8, 0x8C#8] := by
  decide

/-- By linearity eight values give CK8 on every byte (R63 item 4). -/
theorem checksum8_zero_eq_xor_ifBit (x : Byte) :
    checksum8 0x00#8 x =
      ifBit (x.getLsbD 0) 0x5E#8 ^^^ ifBit (x.getLsbD 1) 0xBC#8 ^^^ ifBit (x.getLsbD 2) 0x61#8 ^^^
      ifBit (x.getLsbD 3) 0xC2#8 ^^^ ifBit (x.getLsbD 4) 0x9D#8 ^^^ ifBit (x.getLsbD 5) 0x23#8 ^^^
      ifBit (x.getLsbD 6) 0x46#8 ^^^ ifBit (x.getLsbD 7) 0x8C#8 := by
  have hvalues := checksum8_singleBit
  simp only [List.map_cons, List.cons.injEq] at hvalues
  conv => lhs; rw [eq_xor_ifBit x]
  simp only [checksum8_zero_xor, checksum8_ifBit, hvalues]

end Sys2Proof.Machine
end

section
/-! SUPPORT. A run of bytes pushed from offset 0 (R31): all of them are held until as many have come as
the third says, and the chunk is then judged (R75 to R78). -/

namespace Sys2Proof.Machine

section
variable {b b₀ : Block} {x : Byte} {bs : List Byte}

/-- The block has collected `bs` since `b₀`, and no chunk has ended. -/
structure Block.HasCollected (b₀ : Block) (bs : List Byte) (b : Block) : Prop where
  collecting : b.Collecting
  bytes : b.buf.bytes = bs
  record : b.record = b₀.record
  rvld : b.rvld = b₀.rvld

theorem Block.AtOffset0.hasCollected_nil (h : b.AtOffset0) : Block.HasCollected b [] b where
  collecting := h.collecting
  bytes := by rw [h.buf]; rfl
  record := rfl
  rvld := rfl

theorem Block.HasCollected.cnt_toNat (h : Block.HasCollected b₀ bs b) : b.cnt.toNat = bs.length := by
  rw [← h.collecting.bytes_length, h.bytes]

theorem Block.HasCollected.cell_eq (h : Block.HasCollected b₀ bs b) (k : Nat) : b.cell k = bs[k]? := by
  rw [← h.collecting.bytes_getElem?, h.bytes]

theorem Block.HasCollected.checksum8_crc (h : Block.HasCollected b₀ bs b) (x : Byte) :
    checksum8 b.crc x = checksumFrame (bs ++ [x]) := by
  rw [h.collecting.fold, h.bytes, checksumFrame_concat]

/-- The declared length is the third byte pushed (R43). -/
theorem Block.HasCollected.declaredWith_eq (h : Block.HasCollected b₀ bs b) (h2 : 2 ≤ bs.length) :
    b.declaredWith x = (bs ++ [x])[2]? := by
  have hcnt := h.cnt_toNat
  have hcell : (b.append x).cell 2 = b.declaredWith x :=
    Block.append_cell_two_eq_declaredWith (by bv_omega)
  rw [← hcell]
  rcases h2.lt_or_eq with hlt | heq
  · rw [Block.append_cell_other (by omega), h.cell_eq, List.getElem?_append_left hlt]
  · have htwo : b.cnt.toNat = 2 := by omega
    rw [← htwo, Block.append_cell_same, htwo, heq, List.getElem?_concat_length]

/-- The byte just pushed ends a chunk when it is at least the third and as many as declared (R75). -/
theorem Block.HasCollected.endsChunk_iff (h : Block.HasCollected b₀ bs b) {len : Byte} :
    b.endsChunk x len ↔ (bs ++ [x])[2]? = some len ∧ len.toNat = bs.length + 1 := by
  have hcnt := h.cnt_toNat
  rw [Block.endsChunk, hcnt]
  constructor
  · rintro ⟨h2, hdecl, hlen⟩
    exact ⟨(h.declaredWith_eq (by bv_omega)).symm.trans hdecl, hlen⟩
  · rintro ⟨hthird, hlen⟩
    obtain ⟨hlt, -⟩ := List.getElem?_eq_some_iff.1 hthird
    have h2 : 2 ≤ bs.length := by simpa using hlt
    exact ⟨by bv_omega, (h.declaredWith_eq h2).trans hthird, hlen⟩

/-- A byte that ends no chunk is collected too (R74). -/
theorem Block.HasCollected.push (h : Block.HasCollected b₀ bs b) (hfull : bs.length < 255)
    (hn : b.endsNoChunk x) : ∃ b', b.push x = some b' ∧ Block.HasCollected b₀ (bs ++ [x]) b' := by
  have hcnt := h.cnt_toNat
  obtain ⟨b', hb'⟩ := h.collecting.exists_push x
  have hcollecting := Block.collecting_kept.push h.collecting hb'
  obtain rfl := Block.push_of_endsNoChunk hb' (by bv_omega) hn
  refine ⟨_, hb', hcollecting, ?bytes, h.record, h.rvld⟩
  case bytes =>
    rw [h.collecting.noEvent.append_buf, Memory.bytes, List.map_append]
    exact congrArg (· ++ [x]) h.bytes

theorem Block.pushAll_concat {c b' : Block} (hc : b.pushAll bs = some c) (hb' : c.push x = some b') :
    b.pushAll (bs ++ [x]) = some b' := by
  simp [Block.pushAll_append, hc, Block.pushAll, hb']

/-- While fewer bytes have been pushed than the third declares, all are collected (R52, R75). -/
theorem Block.AtOffset0.exists_pushAll (h : b.AtOffset0) (hfull : bs.length ≤ 255)
    (hshort : ∀ len, bs[2]? = some len → bs.length < len.toNat) :
    ∃ b', b.pushAll bs = some b' ∧ Block.HasCollected b bs b' := by
  induction bs using List.reverseRecOn with
  | nil => exact ⟨b, rfl, h.hasCollected_nil⟩
  | append_singleton bs x ih =>
    rw [List.length_append, List.length_singleton] at hfull hshort
    obtain ⟨c, hc, hcoll⟩ := ih (by omega) fun len hlen => by
      obtain ⟨hlt, -⟩ := List.getElem?_eq_some_iff.1 hlen
      exact Nat.lt_of_succ_lt (hshort len (by rw [List.getElem?_append_left hlt, hlen]))
    have hn : c.endsNoChunk x := fun len he => by
      obtain ⟨hthird, hlen⟩ := hcoll.endsChunk_iff.1 he
      exact absurd hlen (hshort len hthird).ne'
    obtain ⟨b', hb', hcoll'⟩ := hcoll.push hfull hn
    exact ⟨b', Block.pushAll_concat hc hb', hcoll'⟩

theorem Block.discard_congr {a b : Block} (hr : a.record = b.record) (hv : a.rvld = b.rvld)
    (c : CauseMask) : a.discard c = b.discard c := by
  simp only [Block.discard, Block.clear, hr, hv]

/-- A sequence as long as its third byte declares ends a chunk with its last byte, and not before. -/
theorem Block.AtOffset0.exists_endsChunk (h : b.AtOffset0) {len : Byte}
    (hthird : (bs ++ [x])[2]? = some len) (hlen : len.toNat = bs.length + 1) :
    ∃ c b', Block.HasCollected b bs c ∧ c.endsChunk x len ∧ c.push x = some b' ∧
      b.pushAll (bs ++ [x]) = some b' := by
  obtain ⟨c, hc, hcoll⟩ := h.exists_pushAll (bs := bs) (by omega) fun len' hlen' => by
    obtain ⟨hlt, -⟩ := List.getElem?_eq_some_iff.1 hlen'
    rw [List.getElem?_append_left hlt, hlen'] at hthird
    obtain rfl := Option.some.inj hthird
    omega
  obtain ⟨b', hb'⟩ := hcoll.collecting.exists_push x
  exact ⟨c, b', hcoll, hcoll.endsChunk_iff.2 ⟨hthird, hlen⟩, hb',
    Block.pushAll_concat hc hb'⟩

/-- A chunk as long as its third byte declares, with a cause bit set, is discarded with its causes, and
nothing else is left of it (R78, R117). -/
theorem Block.AtOffset0.pushAll_badChunk (h : b.AtOffset0) {b0 b1 len : Byte} {rest : List Byte}
    (hlen : len.toNat = rest.length + 3)
    (hbad : causeMask b0 b1 len (checksumFrame (b0 :: b1 :: len :: rest)) ≠ 0x0#4) :
    b.pushAll (b0 :: b1 :: len :: rest) =
      some (b.discard (causeMask b0 b1 len (checksumFrame (b0 :: b1 :: len :: rest)))) := by
  have hsplit := List.dropLast_append_getLast (l := b0 :: b1 :: len :: rest) (by simp)
  obtain ⟨c, b', hcoll, hends, hb', hrun⟩ :=
    h.exists_endsChunk (len := len) (by rw [hsplit]; rfl) (by simp [hlen])
  rw [hsplit] at hrun
  obtain ⟨c0, c1, m, h0, h1, hm, hjudge⟩ := Block.push_of_endsChunk hb' hends
  obtain rfl : b0 = c0 := Option.some.inj ((hcoll.cell_eq 0).symm.trans h0)
  obtain rfl : b1 = c1 := Option.some.inj ((hcoll.cell_eq 1).symm.trans h1)
  rw [hcoll.checksum8_crc, hsplit] at hm
  rcases hjudge with ⟨hgood, _⟩ | ⟨_, rfl⟩
  · exact absurd (hm.symm.trans hgood) hbad
  · rw [hrun, ← hm]
    exact congrArg some (Block.discard_congr hcoll.record hcoll.rvld m)

end

/-- The three bytes at the head of a frame, and how many follow them (R45). -/
theorem exists_frameBytes_tail (dev itv : Byte) (ver v1 v2 : Half) (st : Byte) (res : List Byte)
    (k : Byte) :
    ∃ rest, frameBytes dev itv ver v1 v2 st res k =
        0xCC#8 :: 0x55#8 :: BitVec.ofNat 8 (13 + res.length) :: rest ∧
      rest.length = res.length + 10 := by
  refine ⟨dev :: itv :: (bigEndian ver ++ bigEndian v1 ++ bigEndian v2 ++ [st] ++ res ++ [k]), rfl, ?_⟩
  simp [bigEndian]

/-- The causes of 13 bytes with a non-zero fold: CKSUM, and with it those of the sync bytes (R76). -/
theorem causeMask_badFold {b0 b1 fold : Byte} (hfold : fold ≠ 0x00#8) :
    causeMask b0 b1 0x0D#8 fold =
      0x4#4 ||| (if b0 = 0xCC#8 then 0x0#4 else 0x1#4) ||| (if b1 = 0x55#8 then 0x0#4 else 0x2#4) := by
  unfold causeMask
  by_cases h0 : b0 = 0xCC#8 <;> by_cases h1 : b1 = 0x55#8 <;> simp [hfold, h0, h1]

theorem Block.AtOffset0.pushAll_badFold {b : Block} (h : b.AtOffset0) {b0 b1 : Byte} {rest : List Byte}
    (hlen : rest.length = 10) (hfold : checksumFrame (b0 :: b1 :: 0x0D#8 :: rest) ≠ 0x00#8) :
    b.pushAll (b0 :: b1 :: 0x0D#8 :: rest) = some (b.discard
      (0x4#4 ||| (if b0 = 0xCC#8 then 0x0#4 else 0x1#4) |||
        (if b1 = 0x55#8 then 0x0#4 else 0x2#4))) := by
  have hbad : causeMask b0 b1 0x0D#8 (checksumFrame (b0 :: b1 :: 0x0D#8 :: rest)) ≠ 0x0#4 := fun hc =>
    have ⟨_, _, hzero, _⟩ := causeMask_eq_zero_iff.1 hc
    hfold hzero
  rw [h.pushAll_badChunk (by rw [hlen]; rfl) hbad, causeMask_badFold hfold]

end Sys2Proof.Machine
end

section
/-! SUPPORT. The statements about the checksum (spec/40_checksum.md). -/

namespace Sys2Proof.Machine

/-- Settles O48: the damage leaves the length byte alone, so all 13 bytes are collected, and it shows in
the fold. -/
theorem singleBitDamageIsDiscarded : Obligations.SingleBitDamageIsDiscarded := by
  unfold Obligations.SingleBitDamageIsDiscarded
  intro devId interval verOff val1 val2 status b j bit hb hj
  have hbit := singleBit_ne_zero bit
  generalize 1#8 <<< bit.val = e at hbit ⊢
  generalize hk : checksumFrame (framePrefix devId interval verOff val1 val2 status []) = k
  have hgood : checksumFrame (frameBytes devId interval verOff val1 val2 status [] k) = 0x00#8 :=
    checksumFrame_concat_eq_zero_iff.2 hk.symm
  obtain ⟨rest, hbytes, hlen⟩ := exists_frameBytes_tail devId interval verOff val1 val2 status [] k
  rw [hbytes] at hgood ⊢
  suffices hdiscard : b.pushAll ((0xCC#8 :: 0x55#8 :: 0x0D#8 :: rest).modify j.val (· ^^^ e)) =
      some (b.discard (if j = 0 then 0x5#4 else if j = 1 then 0x6#4 else 0x4#4)) from
    ⟨_, hdiscard, rfl, rfl, rfl, rfl, rfl, ⟨rfl, rfl, rfl⟩⟩
  have hfold :
      checksumFrame ((0xCC#8 :: 0x55#8 :: 0x0D#8 :: rest).modify j.val (· ^^^ e)) ≠ 0x00#8 := by
    rw [← hgood]
    exact checksumFrame_modify_ne (by simp [hlen]) (xor_ne_self_of_ne_zero hbit)
  match j with
  | 0 =>
    have hrun := hb.pushAll_badFold (b0 := 0xCC#8 ^^^ e) hlen hfold
    rwa [if_neg (xor_ne_self_of_ne_zero hbit)] at hrun
  | 1 =>
    have hrun := hb.pushAll_badFold (b1 := 0x55#8 ^^^ e) hlen hfold
    rwa [if_neg (xor_ne_self_of_ne_zero hbit)] at hrun
  | 2 => exact absurd rfl hj
  | ⟨n + 3, hn⟩ =>
    exact hb.pushAll_badFold ((List.length_modify ..).trans hlen) hfold

/-- Settles O6: the definition is the eight iterations, and equal bytes give an exclusive or of 0. -/
theorem checksumIsEightShifts : Obligations.ChecksumIsEightShifts := by
  unfold Obligations.ChecksumIsEightShifts
  exact ⟨checksum8_eq_iterate, fun _ => checksum8_eq_zero_iff.2 rfl⟩

/-- Settles O7: every iteration is linear and one-to-one, so CK8 is. -/
theorem checksumIsLinearAndBijective : Obligations.ChecksumIsLinearAndBijective := by
  unfold Obligations.ChecksumIsLinearAndBijective
  exact ⟨checksum8_eq_xor, checksum8_zero_xor, checksum8_zero_bijective, checksum8_singleBit⟩

/-- Settles O8: each bit of the sum of the eight values, by linearity. -/
theorem checksumBitEquations : Obligations.ChecksumBitEquations := by
  unfold Obligations.ChecksumBitEquations
  rintro seed data x y rfl rfl
  rw [checksum8_eq_xor, checksum8_zero_eq_xor_ifBit]
  generalize seed ^^^ data = x
  simp only [BitVec.getLsbD_xor, ifBit_getLsbD]
  simp

/-- Settles O9: CK8 gives zero for equal operands alone. -/
theorem checksumByteIsUnique : Obligations.ChecksumByteIsUnique := by
  unfold Obligations.ChecksumByteIsUnique
  exact fun _ _ => checksumFrame_concat_eq_zero_iff

/-- Settles O10: the fold is linear; and a pattern with one bit set differs in one byte from zeros,
which fold to zero. -/
theorem damageIsFoldedAlone : Obligations.DamageIsFoldedAlone := by
  unfold Obligations.DamageIsFoldedAlone
  refine ⟨fun f e hlen hf => ?damage, fun m n k => ?singleBit⟩
  case damage => rw [checksumFrame_zipWith_xor hlen, hf, BitVec.zero_xor]
  case singleBit =>
    have hzeros :
        checksumFrame (List.replicate m 0x00#8 ++ 0x00#8 :: List.replicate n 0x00#8) = 0x00#8 := by
      rw [← List.replicate_succ, List.replicate_append_replicate, checksumFrame_replicate_zero]
    rw [List.append_assoc, List.singleton_append]
    exact fun hbad => singleBit_ne_zero k (checksumFrame_append_cons_inj.1 (hbad.trans hzeros.symm))

/-- Settles O11: CK8 is one-to-one in its seed and in its data. -/
theorem pseudoIdentityBytesDiffer : Obligations.PseudoIdentityBytesDiffer := by
  unfold Obligations.PseudoIdentityBytesDiffer
  refine ⟨fun d x y hne hpid => hne ?sameSeed, fun x d d' hne hpid => hne ?sameDevice⟩
  case sameSeed =>
    have hseed := (BitVec.xor_left_inj d).1 (checksum8_inj.1 hpid)
    bv_omega
  case sameDevice => exact (BitVec.xor_right_inj x).1 (checksum8_inj.1 hpid)

end Sys2Proof.Machine
end

section
/-! SUPPORT. The step of the block by its control word (R70): RST, PUSH or IDLE, and it completes in every
state that meets R22. -/

namespace Sys2Proof.Machine

section
variable {b : Block} {w : ControlWord}

theorem isPushWord_eq_true_iff : isPushWord w = true ↔ w.getLsbD 9 = false ∧ w.getLsbD 8 = true := by
  simp only [isPushWord, Bool.and_eq_true, Bool.not_eq_true']

theorem isIdleWord_eq_true_iff : isIdleWord w = true ↔ w.getLsbD 9 = false ∧ w.getLsbD 8 = false := by
  simp only [isIdleWord, Bool.and_eq_true, Bool.not_eq_true']

theorem Block.sample_of_isRstWord (h : isRstWord w = true) (b : Block) : b.sample w = some b.rst :=
  if_pos h

theorem Block.sample_of_isPushWord (h : isPushWord w = true) (b : Block) :
    b.sample w = b.push (w.extractLsb' 0 8) := by
  obtain ⟨h9, h8⟩ := isPushWord_eq_true_iff.1 h
  rw [Block.sample, h9, h8]
  rfl

/-- Every control word is RST, PUSH or IDLE (R50). -/
theorem controlWord_cases (w : ControlWord) :
    isRstWord w = true ∨ isPushWord w = true ∨ isIdleWord w = true :=
  (decodeControl_cases w).imp And.left (Or.imp And.left And.left)

theorem isPushWord_or_isIdleWord (h : isRstWord w = false) :
    isPushWord w = true ∨ isIdleWord w = true :=
  (controlWord_cases w).resolve_left (by simp [h])

theorem not_isPushWord_of_isIdleWord (h : isIdleWord w = true) : ¬isPushWord w = true := by
  obtain ⟨_, h8⟩ := isIdleWord_eq_true_iff.1 h
  rw [isPushWord_eq_true_iff, h8]
  exact fun ⟨_, h⟩ => Bool.noConfusion h

theorem isPushWord_pushWord (x : Byte) : isPushWord (pushWord x) = true := by
  refine isPushWord_eq_true_iff.2 ⟨?_, extractLsb'_one_eq_one_iff.1 (controlWord_inValid 0#1 1#1 x)⟩
  rw [← Bool.not_eq_true, ← extractLsb'_one_eq_one_iff, pushWord, controlWord_rst]
  decide

theorem isRstWord_pushWord (x : Byte) : isRstWord (pushWord x) = false :=
  (isPushWord_eq_true_iff.1 (isPushWord_pushWord x)).1

theorem Block.sample_pushWord (x : Byte) (b : Block) : b.sample (pushWord x) = b.push x := by
  rw [Block.sample_of_isPushWord (isPushWord_pushWord x), pushWord, controlWord_inData]

/-- No step of the block reads a cell that holds no value (R70, R110). -/
theorem Block.Collecting.exists_sample (hb : b.Collecting) (w : ControlWord) :
    ∃ b', b.sample w = some b' := by
  rcases controlWord_cases w with hw | hw | hw
  · exact ⟨_, Block.sample_of_isRstWord hw b⟩
  · exact Block.sample_of_isPushWord hw b ▸ hb.exists_push _
  · exact ⟨_, Block.sample_of_isIdleWord hw b⟩

theorem decodeControl_of_isRstWord (h : isRstWord w = true) :
    decodeControl w = .rst (w.extractLsb' 8 1) (w.extractLsb' 0 8) :=
  if_pos (extractLsb'_one_eq_one_iff.2 h)

theorem decodeControl_of_isPushWord (h : isPushWord w = true) :
    decodeControl w = .push (w.extractLsb' 0 8) := by
  obtain ⟨h9, h8⟩ := isPushWord_eq_true_iff.1 h
  simp only [decodeControl, extractLsb'_one_eq_one_iff, h9, h8]
  rfl

theorem decodeControl_of_isIdleWord (h : isIdleWord w = true) :
    decodeControl w = .idle (w.extractLsb' 0 8) := by
  obtain ⟨h9, h8⟩ := isIdleWord_eq_true_iff.1 h
  simp only [decodeControl, extractLsb'_one_eq_one_iff, h9, h8]
  rfl

/-- The instruction of a control word does to the machine what the word does to the block (R70). -/
theorem exec_decodeControl (w : ControlWord) (s : State) :
    exec (decodeControl w) s = s.onBlock (Block.sample w) := by
  rcases controlWord_cases w with hw | hw | hw
  · rw [decodeControl_of_isRstWord hw, State.onBlock, Block.sample_of_isRstWord hw]
    rfl
  · rw [decodeControl_of_isPushWord hw, State.onBlock, Block.sample_of_isPushWord hw]
    rfl
  · rw [decodeControl_of_isIdleWord hw, State.onBlock, Block.sample_of_isIdleWord hw]
    rfl

/-- A step that takes a control word is that of the block on the word (R7, R70). -/
theorem step_of_pending_control {s : State} {rest : List StimulusWord}
    (h : s.pending = .control w :: rest) : step s = exec (decodeControl w) { s with pending := rest } :=
  step_of_decode_ok (State.fetch_of_pending_cons h) rfl

end

end Sys2Proof.Machine
end

section
/-! SUPPORT. Runs without RST: in lock-up nothing happens (R86), and elsewhere every event is paid with the
bytes of its chunk (R85). -/

namespace Sys2Proof.Machine

section
variable {b b' : Block} {w : ControlWord} {x : Byte}

/-- In lock-up a step other than RST completes, shows no event and changes neither `LOCK` nor the record
(R86). -/
theorem Block.Collecting.exists_sample_of_lock (hb : b.Collecting) (hl : b.lock = true)
    (hw : isRstWord w = false) :
    ∃ b', b.sample w = some b' ∧ b'.Collecting ∧ b'.lock = true ∧ b'.events = [] ∧
      b'.record = b.record ∧ b'.rvld = b.rvld := by
  rcases isPushWord_or_isIdleWord hw with hw | hw
  · obtain ⟨b', hb'⟩ := hb.exists_push (w.extractLsb' 0 8)
    obtain ⟨hl', hrec, hdis⟩ := Block.push_of_lock hb' hl
    exact ⟨b', (Block.sample_of_isPushWord hw b).trans hb', Block.collecting_kept.push hb hb', hl',
      by simp [Block.events, hrec, hdis], Block.push_keeps_record hb' hrec⟩
  · exact ⟨_, Block.sample_of_isIdleWord hw b, hb.noEvent, hl, rfl, rfl, rfl⟩

theorem Block.Collecting.exists_feed_of_lock {ws : List ControlWord} (hb : b.Collecting)
    (hl : b.lock = true) (hws : ∀ w ∈ ws, isRstWord w = false) :
    ∃ b', b.feed ws = some ([], b') ∧ b'.lock = true ∧ b'.record = b.record ∧ b'.rvld = b.rvld := by
  induction ws generalizing b with
  | nil => exact ⟨b, rfl, hl, rfl, rfl⟩
  | cons w ws ih =>
    obtain ⟨hw, hws⟩ := List.forall_mem_cons.1 hws
    obtain ⟨c, hc, hcoll, hlock, hev, hrec, hv⟩ := hb.exists_sample_of_lock hl hw
    obtain ⟨b', hb', hl', hrec', hv'⟩ := ih hcoll hlock hws
    exact ⟨b', by simp [Block.feed_cons, hc, hb', hev], hl', hrec'.trans hrec, hv'.trans hv⟩

/-- At saturation PUSH drops its byte (R80). -/
theorem Block.push_of_full (hc : b.cnt = 255#8) (x : Byte) : b.push x = some b.noEvent := if_pos hc

/-- A PUSH that ends no chunk shows no event and counts at most its byte (R74, R80). -/
theorem Block.push_quiet (h : b.push x = some b') (hn : b.endsNoChunk x) :
    b'.events = [] ∧ b'.cnt.toNat ≤ b.cnt.toNat + 1 := by
  by_cases hc : b.cnt = 255#8
  · obtain rfl : b.noEvent = b' := Option.some.inj ((Block.push_of_full hc x).symm.trans h)
    exact ⟨rfl, Nat.le_succ _⟩
  · obtain rfl := Block.push_of_endsNoChunk h hc hn
    exact ⟨rfl, (Block.append_cnt_toNat (b := b.noEvent) hc x).le⟩

/-- A PUSH adds one byte to the count, and an event takes all that are counted: at least 3, and at least
13 for an emit (R85). -/
theorem Block.push_event_cost (h : b.push x = some b') :
    3 * b'.events.length + b'.cnt.toNat ≤ b.cnt.toNat + 1 ∧
      13 * (b'.events.filter Event.isEmit).length + b'.cnt.toNat ≤ b.cnt.toNat + 1 := by
  by_cases he : ∃ len, b.endsChunk x len
  · obtain ⟨len, he⟩ := he
    have ⟨h2, _, hlen⟩ := he
    have h3 : 3 ≤ b.cnt.toNat + 1 := by bv_omega
    obtain ⟨_, _, c, _, _, hmask, ⟨rfl, r, _, rfl⟩ | ⟨_, rfl⟩⟩ := Block.push_of_endsChunk h he
    · obtain ⟨_, _, _, hmin⟩ := causeMask_eq_zero_iff.1 hmask.symm
      have h13 : 13 ≤ b.cnt.toNat + 1 := by bv_omega
      exact ⟨h3, h13⟩
    · exact ⟨h3, Nat.zero_le _⟩
  · obtain ⟨hev, hcnt⟩ := Block.push_quiet h (not_exists.1 he)
    simpa [hev] using hcnt

/-- The cost of the events of a run is paid by its PUSH words and the bytes held before it. -/
theorem Block.feed_event_cost {k : Nat} {p : Event → Bool}
    (hpush : ∀ {b b' : Block} {x : Byte}, b.push x = some b' →
      k * (b'.events.filter p).length + b'.cnt.toNat ≤ b.cnt.toNat + 1)
    {ws : List ControlWord} {es : List Event} (hws : ∀ w ∈ ws, isRstWord w = false)
    (h : b.feed ws = some (es, b')) :
    k * (es.filter p).length ≤ b.cnt.toNat + (ws.filter isPushWord).length := by
  induction ws generalizing b es with
  | nil => cases h; simp
  | cons w ws ih =>
    obtain ⟨hw, hws⟩ := List.forall_mem_cons.1 hws
    simp only [Block.feed_cons, Option.bind_eq_some_iff, Option.map_eq_some_iff] at h
    obtain ⟨c, hc, p, hd, hes⟩ := h
    cases hes
    have hrest := ih hws hd
    rw [List.filter_append, List.length_append, Nat.mul_add]
    rcases isPushWord_or_isIdleWord hw with hw | hw
    · have hstep := hpush ((Block.sample_of_isPushWord hw b).symm.trans hc)
      rw [List.filter_cons_of_pos hw, List.length_cons]
      omega
    · obtain rfl := Option.some.inj ((Block.sample_of_isIdleWord hw b).symm.trans hc)
      rw [List.filter_cons_of_neg (not_isPushWord_of_isIdleWord hw)]
      simpa using hrest

end

end Sys2Proof.Machine
end

section
/-! SUPPORT. A chunk by its bytes (R83): what the block makes of the chunk that a byte ends is the event of
its bytes, and a byte stream is cut as R83 says. -/

namespace Sys2Proof.Machine

/-- The block after an event is taken: the emit or the discard (R77, R78). -/
def Block.takeEvent (b : Block) : Event → Block
  | .emit r => b.emit r
  | .discard c => b.discard c

@[simp] theorem Block.takeEvent_events (b : Block) (e : Event) : (b.takeEvent e).events = [e] := by
  cases e <;> rfl

theorem Block.takeEvent_atOffset0 (b : Block) (e : Event) : (b.takeEvent e).AtOffset0 := by
  cases e <;> exact ⟨rfl, rfl, rfl⟩

/-- A chunk without a cause bit is emitted with the fields at their offsets (R77, R90). -/
theorem chunkEvent_emit {len dev itv verH verL v1H v1L v2H v2L st : Byte} {rest : List Byte}
    (hmin : 13 ≤ len.toNat)
    (hfold : checksumFrame (0xCC#8 :: 0x55#8 :: len :: dev :: itv :: verH :: verL :: v1H :: v1L :: v2H ::
      v2L :: st :: rest) = 0x00#8) :
    chunkEvent (0xCC#8 :: 0x55#8 :: len :: dev :: itv :: verH :: verL :: v1H :: v1L :: v2H :: v2L :: st ::
        rest) =
      some (.emit { len := len, devId := dev, interval := itv, verOff := verH ++ verL,
                    val1 := v1H ++ v1L, val2 := v2H ++ v2L, status := st }) :=
  if_pos ⟨rfl, rfl, hmin, hfold⟩

/-- A chunk with a cause bit set is discarded with its causes (R78). -/
theorem chunkEvent_discard {b0 b1 len : Byte} {rest : List Byte}
    (hbad : causeMask b0 b1 len (checksumFrame (b0 :: b1 :: len :: rest)) ≠ 0x0#4) :
    chunkEvent (b0 :: b1 :: len :: rest) =
      some (.discard (causeMask b0 b1 len (checksumFrame (b0 :: b1 :: len :: rest)))) :=
  if_neg fun ⟨h0, h1, hmin, hfold⟩ =>
    hbad (causeMask_eq_zero_iff.2 ⟨h0, h1, hfold, by bv_omega⟩)

section
variable {b b' b₀ : Block} {x len : Byte} {bs : List Byte}

/-- The cells after an append are the bytes held and the one appended (R31). -/
theorem Block.HasCollected.append_cell_eq (h : Block.HasCollected b₀ bs b) (x : Byte) (k : Nat) :
    (b.append x).cell k = (bs ++ [x])[k]? := by
  have hcnt := h.cnt_toNat
  rcases Nat.lt_trichotomy k bs.length with hlt | rfl | hgt
  · rw [Block.append_cell_other (by omega), h.cell_eq, List.getElem?_append_left hlt]
  · rw [← hcnt, Block.append_cell_same, hcnt, List.getElem?_concat_length]
  · rw [Block.append_cell_other (by omega), h.cell_eq, List.getElem?_eq_none (by omega),
      List.getElem?_eq_none (by simpa using hgt)]

/-- A list with three elements or more, by its elements at 0, 1 and 2. -/
theorem exists_eq_cons_cons_cons {l : List Byte} {b0 b1 b2 : Byte} (h0 : l[0]? = some b0)
    (h1 : l[1]? = some b1) (h2 : l[2]? = some b2) : ∃ rest, l = b0 :: b1 :: b2 :: rest := by
  match l with
  | a0 :: a1 :: a2 :: rest => exact ⟨rest, by simp_all⟩

/-- The extractor answers the fields at their offsets (R90). -/
theorem Block.extract_of_cells {b0 b1 dev itv verH verL v1H v1L v2H v2L st : Byte} {rest : List Byte}
    (h : ∀ k, b.cell k = (b0 :: b1 :: len :: dev :: itv :: verH :: verL :: v1H :: v1L :: v2H :: v2L ::
      st :: rest)[k]?) :
    b.extract = some { len := len, devId := dev, interval := itv, verOff := verH ++ verL,
                       val1 := v1H ++ v1L, val2 := v2H ++ v2L, status := st } := by
  simp [Block.extract, Block.cellPair, h]

/-- The chunk that a byte ends is judged as its bytes alone say (R76 to R78, R83). -/
theorem Block.HasCollected.push_of_endsChunk (h : Block.HasCollected b₀ bs b) (hp : b.push x = some b')
    (he : b.endsChunk x len) : ∃ e, chunkEvent (bs ++ [x]) = some e ∧ b' = b₀.takeEvent e := by
  obtain ⟨hthird, hlen⟩ := h.endsChunk_iff.1 he
  obtain ⟨b0, b1, c, h0, h1, hmask, hjudge⟩ := Block.push_of_endsChunk hp he
  have hcell (k : Nat) : (b.noEvent.append x).cell k = (bs ++ [x])[k]? := h.append_cell_eq x k
  have hbytes : (bs ++ [x]).length = len.toNat := by simp [hlen]
  rw [h.checksum8_crc] at hmask
  rw [h.cell_eq] at h0 h1
  have hheld {k : Nat} {v : Byte} (hk : bs[k]? = some v) : (bs ++ [x])[k]? = some v := by
    obtain ⟨hlt, _⟩ := List.getElem?_eq_some_iff.1 hk
    rw [List.getElem?_append_left hlt, hk]
  obtain ⟨rest, hrest⟩ := exists_eq_cons_cons_cons (hheld h0) (hheld h1) hthird
  rw [hrest] at hmask hcell hbytes ⊢
  rcases hjudge with ⟨rfl, r, hr, rfl⟩ | ⟨hc, rfl⟩
  · obtain ⟨rfl, rfl, hfold, hmin⟩ := causeMask_eq_zero_iff.1 hmask.symm
    have hmin : 13 ≤ len.toNat := by bv_omega
    obtain ⟨dev, itv, verH, verL, v1H, v1L, v2H, v2L, st, res, k, rfl, _⟩ :=
      exists_frameFields_of_length (rest := rest) (n := len.toNat - 13) (by simp at hbytes; omega)
    obtain rfl := Option.some.inj (hr.symm.trans (Block.extract_of_cells hcell))
    exact ⟨_, chunkEvent_emit hmin hfold, rfl⟩
  · subst hmask
    exact ⟨_, chunkEvent_discard hc, Block.discard_congr h.record h.rvld _⟩

/-- A chunk as long as its third byte says, pushed at offset 0, ends in the event of its bytes (R83). -/
theorem Block.AtOffset0.pushAll_chunk (h : b.AtOffset0) {e : Event} (hthird : bs[2]? = some len)
    (hlen : len.toNat = bs.length) (he : chunkEvent bs = some e) :
    b.pushAll bs = some (b.takeEvent e) := by
  have hne : bs ≠ [] := by rintro rfl; cases hthird
  rw [← List.dropLast_append_getLast hne] at hthird hlen he ⊢
  rw [List.length_append, List.length_singleton] at hlen
  obtain ⟨c, b', hcoll, hends, hb', hrun⟩ := h.exists_endsChunk hthird hlen
  obtain ⟨e', he', rfl⟩ := hcoll.push_of_endsChunk hb' hends
  obtain rfl := Option.some.inj (he.symm.trans he')
  exact hrun

end

section
variable {b b' : Block} {x len : Byte} {fuel : Nat} {bs xs : List Byte}

theorem Block.Collecting.hasCollected (hb : b.Collecting) : Block.HasCollected b b.buf.bytes b :=
  ⟨hb, rfl, rfl, rfl⟩

/-- A chunk at the head of a byte sequence is cut off it (R83). -/
theorem chunkEvents_cut (hthird : bs[2]? = some len) (hlen : len.toNat = bs.length) :
    chunkEvents (fuel + 1) (bs ++ xs) = (chunkEvent bs).toList ++ chunkEvents fuel xs := by
  match bs with
  | b0 :: b1 :: b2 :: rest =>
    obtain rfl : b2 = len := Option.some.inj hthird
    have hwhole : ¬(b2.toNat < 3 ∨ (b0 :: b1 :: b2 :: (rest ++ xs)).length < b2.toNat) := by
      simp at hlen ⊢
      omega
    refine (if_neg hwhole).trans ?_
    simp only [hlen, List.take_left, List.drop_left]

/-- No chunk ends while fewer bytes have come than the third says, or ever when it is below 3 (R83). -/
theorem chunkEvents_eq_nil (h : ∀ len, bs[2]? = some len → len.toNat < 3 ∨ bs.length < len.toNat) :
    chunkEvents fuel bs = [] := by
  cases fuel with
  | zero => rfl
  | succ fuel =>
    match bs with
    | [] => rfl
    | [_] => rfl
    | [_, _] => rfl
    | _ :: _ :: len :: _ => exact if_pos (h len rfl)

/-- The bytes held are no whole chunk (R22 item 3). -/
theorem Block.Collecting.chunkEvents_bytes (hb : b.Collecting) : chunkEvents fuel b.buf.bytes = [] :=
  chunkEvents_eq_nil fun len hthird => by
    obtain ⟨hheld, _⟩ := List.getElem?_eq_some_iff.1 hthird
    rw [hb.bytes_length] at hheld ⊢
    obtain ⟨len', hlen', hopen⟩ := hb.noBoundary (by bv_omega)
    rw [hb.bytes_getElem?, hlen'] at hthird
    obtain rfl := Option.some.inj hthird
    bv_omega

/-- In lock-up no chunk ever ends (R83, R86). -/
theorem Block.Collecting.chunkEvents_of_lock (hb : b.Collecting) (hl : b.lock = true) :
    chunkEvents fuel (b.buf.bytes ++ xs) = [] := by
  obtain ⟨h3, len, hlen, hlt⟩ := Block.lock_eq_true_iff.1 hl
  refine chunkEvents_eq_nil fun len' hlen' => .inl ?_
  have hheld : 2 < b.buf.bytes.length := by
    rw [hb.bytes_length]
    bv_omega
  rw [List.getElem?_append_left hheld, hb.bytes_getElem?, hlen] at hlen'
  obtain rfl := Option.some.inj hlen'
  exact BitVec.lt_def.1 hlt

/-- One PUSH outside lock-up: the events to come are the one it shows and those of the bytes it leaves
held, with what comes after them (R83). -/
theorem Block.Collecting.chunkEvents_push (hb : b.Collecting) (hl : b.lock ≠ true)
    (hp : b.push x = some b') (hfuel : (b.buf.bytes ++ x :: xs).length ≤ fuel) :
    ∃ fuel', (b'.buf.bytes ++ xs).length ≤ fuel' ∧
      chunkEvents fuel (b.buf.bytes ++ x :: xs) =
        b'.events ++ chunkEvents fuel' (b'.buf.bytes ++ xs) := by
  rw [List.append_cons] at hfuel ⊢
  by_cases he : ∃ len, b.endsChunk x len
  · obtain ⟨len, he⟩ := he
    obtain ⟨e, hev, rfl⟩ := hb.hasCollected.push_of_endsChunk hp he
    obtain ⟨hthird, hlen⟩ := hb.hasCollected.endsChunk_iff.1 he
    have hempty : (b.takeEvent e).buf.bytes = [] := by rw [(b.takeEvent_atOffset0 e).buf]; rfl
    cases fuel with
    | zero => simp at hfuel
    | succ fuel =>
      refine ⟨fuel, by simp [hempty] at hfuel ⊢; omega, ?_⟩
      rw [chunkEvents_cut hthird (by simp [hlen]), hev, hempty, Block.takeEvent_events]
      rfl
  · have hheld : b.buf.bytes.length < 255 := by
      have hc : b.cnt ≠ 255#8 := fun hc => hl (hb.lock_of_full hc)
      rw [hb.bytes_length]
      bv_omega
    obtain ⟨hev, _⟩ := Block.push_quiet hp (not_exists.1 he)
    obtain ⟨c, hc, hcoll⟩ := hb.hasCollected.push hheld (not_exists.1 he)
    obtain rfl := Option.some.inj (hc.symm.trans hp)
    exact ⟨fuel, by rwa [hcoll.bytes], by rw [hcoll.bytes, hev]; rfl⟩

/-- Bytes pushed after those held show the events of the chunks of all of them (R83). -/
theorem Block.Collecting.exists_feed_pushWords (hb : b.Collecting)
    (hfuel : (b.buf.bytes ++ xs).length ≤ fuel) :
    ∃ b', b.feed (xs.map pushWord) = some (chunkEvents fuel (b.buf.bytes ++ xs), b') := by
  induction xs generalizing b fuel with
  | nil => exact ⟨b, by rw [List.append_nil, hb.chunkEvents_bytes]; rfl⟩
  | cons x xs ih =>
    by_cases hl : b.lock = true
    · obtain ⟨b', hb', _⟩ := hb.exists_feed_of_lock hl (ws := (x :: xs).map pushWord)
        (List.forall_mem_map.2 fun y _ => isRstWord_pushWord y)
      exact ⟨b', by rw [hb', hb.chunkEvents_of_lock hl]⟩
    · obtain ⟨c, hc⟩ := hb.exists_push x
      obtain ⟨fuel', hfuel', hevents⟩ := hb.chunkEvents_push hl hc hfuel
      obtain ⟨b', hb'⟩ := ih (Block.collecting_kept.push hb hc) hfuel'
      exact ⟨b', by simp [Block.feed_cons, Block.sample_pushWord, hc, hb', hevents]⟩

end

end Sys2Proof.Machine
end

section
/-! SUPPORT. A whole frame offered at offset 0 (R45, R59): the event of its bytes, and the run of its steps. -/

namespace Sys2Proof.Machine

section
variable {dev itv : Byte} {ver v1 v2 : Half} {st k : Byte} {res : List Byte}

/-- A frame with the fold of the bytes before it as checksum byte is emitted with its own fields (R62,
R77, R90). -/
theorem chunkEvent_goodFrame (hfits : 13 + res.length ≤ 255)
    (hk : k = checksumFrame (framePrefix dev itv ver v1 v2 st res)) :
    chunkEvent (frameBytes dev itv ver v1 v2 st res k) =
      some (.emit { len := BitVec.ofNat 8 (13 + res.length), devId := dev, interval := itv, verOff := ver,
                    val1 := v1, val2 := v2, status := st }) := by
  have hlen := lengthByte_toNat hfits
  have hfold : checksumFrame (frameBytes dev itv ver v1 v2 st res k) = 0x00#8 :=
    checksumFrame_concat_eq_zero_iff.2 hk
  rw [← halves_append ver, ← halves_append v1, ← halves_append v2, frameBytes_layout hlen] at hfold ⊢
  exact chunkEvent_emit (by omega) hfold

theorem causeMask_cksum {len fold : Byte} (hmin : 13 ≤ len.toNat) (hfold : fold ≠ 0x00#8) :
    causeMask 0xCC#8 0x55#8 len fold = 0x4#4 := by
  have hlen : ¬len < Wired.minLen := by bv_omega
  simp [causeMask, hlen, hfold]

/-- A frame with any other checksum byte is discarded with CKSUM alone (R62, R76). -/
theorem chunkEvent_badFrame (hfits : 13 + res.length ≤ 255)
    (hk : k ≠ checksumFrame (framePrefix dev itv ver v1 v2 st res)) :
    chunkEvent (frameBytes dev itv ver v1 v2 st res k) = some (.discard 0x4#4) := by
  have hfold : checksumFrame (frameBytes dev itv ver v1 v2 st res k) ≠ 0x00#8 :=
    checksumFrame_concat_eq_zero_iff.not.2 hk
  obtain ⟨rest, hbytes, _⟩ := exists_frameBytes_tail dev itv ver v1 v2 st res k
  have hlen : 13 ≤ (BitVec.ofNat 8 (13 + res.length)).toNat :=
    (lengthByte_toNat hfits).symm ▸ Nat.le_add_right 13 res.length
  rw [hbytes] at hfold ⊢
  have hmask := causeMask_cksum hlen hfold
  rw [chunkEvent_discard (by rw [hmask]; decide), hmask]

/-- A frame pushed at offset 0 ends in the event of its bytes (R83). -/
theorem Block.AtOffset0.pushAll_frameBytes {b : Block} (h : b.AtOffset0) (hfits : 13 + res.length ≤ 255)
    {e : Event} (he : chunkEvent (frameBytes dev itv ver v1 v2 st res k) = some e) :
    b.pushAll (frameBytes dev itv ver v1 v2 st res k) = some (b.takeEvent e) := by
  obtain ⟨rest, hbytes, hrest⟩ := exists_frameBytes_tail dev itv ver v1 v2 st res k
  refine h.pushAll_chunk (by rw [hbytes]; rfl) ((lengthByte_toNat hfits).trans ?_) he
  simp [hbytes, hrest]
  omega

/-- The frame instruction and as many steps as bytes are left push the whole frame (R59). -/
theorem exists_run_of_pushAll_frameBytes {s : State} {b : Block}
    (h : s.blk.pushAll (frameBytes dev itv ver v1 v2 st res k) = some b) :
    ∃ t, exec (.frame13 dev itv ver v1 v2 st res k) s = .next t ∧
      Sys2Proof.core.run (12 + res.length) t = .next { s with blk := b } := by
  obtain ⟨rest, hbytes, hrest⟩ := exists_frameBytes_tail dev itv ver v1 v2 st res k
  rw [hbytes] at h
  obtain ⟨c, hc, hb⟩ := Block.pushAll_cons_eq_some_iff.1 h
  refine ⟨_, (congrArg (State.pushBytes · s) hbytes).trans
    (State.pushBytes_cons_eq_next_iff.2 ⟨c, hc, rfl⟩), ?_⟩
  have hleft : (0x55#8 :: BitVec.ofNat 8 (13 + res.length) :: rest).length = 12 + res.length := by
    simp [hrest]
    omega
  exact hleft ▸ run_offerAll_pushWords (s := { s with blk := c }) hb

end

/-- At offset 0 a discard writes the event flags alone (R78). -/
theorem Block.AtOffset0.discard_eq {b : Block} (h : b.AtOffset0) (c : CauseMask) :
    b.discard c = { b with evRec := false, evDis := true, dcause := c } := by
  obtain ⟨hbuf, hcnt, hcrc⟩ := h
  simp [Block.discard, Block.clear, hbuf, hcnt, hcrc]

end Sys2Proof.Machine
end

section
/-! SUPPORT. The statements about the accumulator (spec/41_accumulator.md). -/

namespace Sys2Proof.Machine

/-- Settles O29: a step in lock-up keeps the lock and the record and shows no event, so a run does. -/
theorem lockUpIsForEver : Obligations.LockUpIsForEver := by
  unfold Obligations.LockUpIsForEver
  intro ws b hb hl hws
  obtain ⟨hcoll, _, _⟩ := Block.inv_iff.1 hb
  exact hcoll.exists_feed_of_lock hl hws

/-- Settles O46: the frame folds to zero, so the event of its bytes is the emit of its fields. -/
theorem goodFrameIsEmittedWithItsFields : Obligations.GoodFrameIsEmittedWithItsFields := by
  unfold Obligations.GoodFrameIsEmittedWithItsFields
  intro devId interval verOff val1 val2 status reserved s hs hfits
  exact exists_run_of_pushAll_frameBytes (hs.pushAll_frameBytes hfits (chunkEvent_goodFrame hfits rfl))

/-- Settles O47: the frame does not fold to zero, so the event of its bytes is a discard. -/
theorem badChecksumFrameIsDiscarded : Obligations.BadChecksumFrameIsDiscarded := by
  unfold Obligations.BadChecksumFrameIsDiscarded
  intro devId interval verOff val1 val2 status reserved k s hs hfits hk
  rw [← hs.discard_eq]
  exact exists_run_of_pushAll_frameBytes (hs.pushAll_frameBytes hfits (chunkEvent_badFrame hfits hk))

/-- Settles O49: from reset no byte is held, and the bytes pushed are all. -/
theorem accumulatorCutsChunks : Obligations.AccumulatorCutsChunks := by
  unfold Obligations.AccumulatorCutsChunks
  exact fun bytes => Block.collecting_kept.reset.exists_feed_pushWords le_rfl

/-- Settles O51: every event is paid by the bytes of its chunk, and at offset 0 none is held. -/
theorem eventsAreSpaced : Obligations.EventsAreSpaced := by
  unfold Obligations.EventsAreSpaced
  intro ws b b' es hb hws h
  have hevents := Block.feed_event_cost (p := fun _ => true)
    (fun hp => by simpa using (Block.push_event_cost hp).1) hws h
  have hemits := Block.feed_event_cost (fun hp => (Block.push_event_cost hp).2) hws h
  simp only [hb.cnt] at hevents hemits
  exact ⟨by simpa using hevents, by simpa using hemits⟩

/-- Settles O16: no PUSH reads a cell that holds no value. -/
theorem pushCompletes : Obligations.PushCompletes := by
  unfold Obligations.PushCompletes
  intro x s hs
  obtain ⟨hcoll, _, _⟩ := Block.inv_iff.1 hs
  obtain ⟨b, hb⟩ := hcoll.exists_push x
  exact ⟨_, exec_push_eq_next_iff.2 ⟨b, hb, rfl⟩, rfl, rfl⟩

/-- Settles O18: a PUSH that ends no chunk is the append, which writes one cell. -/
theorem pushAppends : Obligations.PushAppends := by
  unfold Obligations.PushAppends
  intro x s hs hc hn
  obtain ⟨hcoll, _, _⟩ := Block.inv_iff.1 hs
  obtain ⟨b, hb⟩ := hcoll.exists_push x
  obtain rfl := Block.push_of_endsNoChunk hb hc hn
  exact ⟨_, exec_push_eq_next_iff.2 ⟨_, hb, rfl⟩, Block.append_cell_same s.blk.noEvent x,
    fun a ha => Block.append_cell_other (b := s.blk.noEvent) ha x, rfl,
    Block.append_cnt_toNat (b := s.blk.noEvent) hc x, rfl, rfl, rfl, rfl, rfl, rfl, rfl⟩

/-- Settles O12: the reset block does not depend on the state, and lock-up ends by RST alone. -/
theorem rstReachesResetState : Obligations.RstReachesResetState := by
  unfold Obligations.RstReachesResetState
  refine ⟨fun _ _ _ => rfl, fun _ _ => rfl, fun i s t hs hl h hunlocked => ?_⟩
  obtain ⟨_, _, hstays⟩ := lockEndsOnlyByReset
  rcases hstays i s t hs hl h with ⟨hlocked, _⟩ | hrst
  · rw [hlocked] at hunlocked
    cases hunlocked
  · exact hrst

/-- Settles O14: IDLE is the fall of the event flags. -/
theorem idleClearsOnlyTheEventFlags : Obligations.IdleClearsOnlyTheEventFlags := by
  unfold Obligations.IdleClearsOnlyTheEventFlags
  exact fun _ _ => rfl

/-- Settles O17: at saturation PUSH takes its first branch; R22 item 4 gives the lock. -/
theorem pushAtSaturationDropsTheByte : Obligations.PushAtSaturationDropsTheByte := by
  unfold Obligations.PushAtSaturationDropsTheByte
  exact ⟨fun x s hc => exec_push_eq_next_iff.2 ⟨_, Block.push_of_full hc x, rfl⟩, fun s hs => hs.full⟩

/-- Settles O54: the decoder chooses the operation by the bits the block samples. -/
theorem controlWordStep : Obligations.ControlWordStep := by
  unfold Obligations.ControlWordStep
  intro s w rest hp
  have hstep := step_of_pending_control hp
  have hblock := hstep.trans (exec_decodeControl w _)
  refine ⟨fun h9 => ?rst, fun h9 h8 => ?push, fun h9 h8 => ?idle, hblock, fun hs => ?completes⟩
  case rst => exact ⟨_, _, by rw [hstep, decodeControl_of_isRstWord h9]⟩
  case push => rw [hstep, decodeControl_of_isPushWord (isPushWord_eq_true_iff.2 ⟨h9, h8⟩)]
  case idle =>
    exact ⟨_, by rw [hstep, decodeControl_of_isIdleWord (isIdleWord_eq_true_iff.2 ⟨h9, h8⟩)]⟩
  case completes =>
    obtain ⟨hcoll, _, _⟩ := Block.inv_iff.1 hs
    obtain ⟨b, hb⟩ := hcoll.exists_sample w
    exact ⟨_, hblock.trans (State.onBlock_eq_next_iff.2 ⟨b, hb, rfl⟩)⟩

end Sys2Proof.Machine
end

section
/-! SUPPORT. A read by its select code (R51, R91): the word the mux answers, and what the record words and
the pseudo-identity bytes are before the first emit and after it. -/

namespace Sys2Proof.Machine

/-- The read of a select code puts the code on `fsel` and does nothing else (R38, R91). -/
theorem exec_decodeSelect (c : SelCode) (s : State) :
    exec (decodeSelect c) s = .next (s.select c) := by
  obtain ⟨⟨k, hk⟩⟩ := c
  interval_cases k <;> rfl

/-- So it shows the mux's word of the code. -/
theorem shows_decodeSelect (c : SelCode) (s : State) :
    Shows (decodeSelect c) s (s.blk.muxWord c) :=
  ⟨s.select c, exec_decodeSelect c s, rfl, rfl, rfl⟩

/-- A code at which a byte register begins shows its zero extension (R49). -/
theorem shows_decodeSelect_zeroExtend {c : SelCode} {s : State} {v : Byte}
    (h : s.blk.muxWord c = zext16 v) : Shows (decodeSelect c) s (v.zeroExtend 16) :=
  zext16_eq_zeroExtend v ▸ h ▸ shows_decodeSelect c s

/-- Before the first emit the two words of LEN and DEVID are those of the zero record (R22 item 7). -/
theorem Block.Inv.words_of_not_rvld {b : Block} (hb : b.Inv) (hv : b.rvld = false) :
    wordLen b = 0x0000#16 ∧ wordDevId b = 0x0000#16 := by
  rw [wordLen, wordDevId, hb.noRecord hv]
  exact ⟨rfl, rfl⟩

/-- After an emit the word of LEN is a length that a frame can declare (R22 item 7, R92). -/
theorem Block.Inv.wordLen_bounds {b : Block} (hb : b.Inv) (hv : b.rvld = true) :
    0x000D#16 ≤ wordLen b ∧ wordLen b ≤ 0x00FF#16 := by
  have hlen : 13#8 ≤ b.record.len := hb.recordLen hv
  rw [wordLen, zext16_eq_zeroExtend]
  constructor <;> bv_omega

/-- The pseudo-identity words of DeviceId 0, which the registers hold before the first emit (R99 to
R104). -/
theorem Block.Inv.wordPid_of_not_rvld {b : Block} (hb : b.Inv) (hv : b.rvld = false) :
    wordPid0 b = 0x0000#16 ∧ wordPid1 b = 0x005E#16 ∧ wordPid2 b = 0x00BC#16 ∧
      wordPid3 b = 0x00E2#16 ∧ wordPid4 b = 0x0061#16 ∧ wordPid5 b = 0x003F#16 := by
  have hdev : b.record.devId = 0x00#8 := by rw [hb.noRecord hv]; rfl
  simp only [wordPid0, wordPid1, wordPid2, wordPid3, wordPid4, wordPid5, hdev]
  decide

end Sys2Proof.Machine
end

section
/-! SUPPORT. The values STAT takes (R105): its number by its five fields, and which of them stand together
in a state that a run from reset reaches. -/

namespace Sys2Proof.Machine

/-- A flag appended below a vector doubles the vector's number and is its bit 0. -/
theorem toNat_appendBit {n : Nat} (v : BitVec n) (p : Bool) :
    (v ++ BitVec.ofBool p).toNat = 2 * v.toNat + p.toNat := by
  rw [BitVec.toNat_append, ← Nat.shiftLeft_add_eq_or_of_lt (BitVec.ofBool p).isLt, Nat.shiftLeft_eq,
    BitVec.toNat_ofBool]
  omega

/-- STAT as a number, its fields from DCAUSE down (R19). -/
theorem Block.stat_toNat (b : Block) :
    b.stat.toNat = 16 * b.dcause.toNat + 8 * b.evDis.toNat + 4 * b.evRec.toNat + 2 * b.lock.toNat +
      b.rvld.toNat := by
  have hzeros : (0x00#8 ++ b.dcause).toNat = b.dcause.toNat := by
    rw [BitVec.toNat_append, BitVec.toNat_zero, Nat.zero_shiftLeft, Nat.zero_or]
  rw [Block.stat]
  simp only [toNat_appendBit, hzeros]
  omega

/-- The emit that shows EV_REC also sets RVLD (R77): not an item of R22, but it holds along every run. -/
theorem Block.rvld_of_evRec_kept : Block.Kept fun b => b.evRec = true → b.rvld = true where
  reset h := Bool.noConfusion h
  noEvent _ h := Bool.noConfusion h
  push _ hp := Block.push_sets_rvld hp

/-- An event excludes lock-up (R22 item 6), so STAT shows a discard with its causes, an emit with the
record it made valid, or no event (R105). -/
theorem Block.Inv.stat_values {b : Block} (hb : b.Inv) (hrec : b.evRec = true → b.rvld = true) :
    b.stat ≤ 0x0003#16 ∨ b.stat = 0x0005#16 ∨
      ∃ x : Nat, 1 ≤ x ∧ x ≤ 15 ∧ (b.stat.toNat = 16 * x + 8 ∨ b.stat.toNat = 16 * x + 9) := by
  have hstat := b.stat_toNat
  have hlock (he : b.evRec = true ∨ b.evDis = true) : b.lock = false := by
    rw [← Bool.not_eq_true]
    intro hl
    simp [hb.noEvent_of_lock hl] at he
  cases hdis : b.evDis with
  | true =>
    have hevRec : b.evRec = false := by simpa [hdis] using hb.oneEvent
    have hcause : b.dcause ≠ 0x0#4 := by simp [hb.cause, hdis]
    have hv := Bool.toNat_le b.rvld
    simp only [hdis, hevRec, hlock (.inr hdis), Bool.toNat_true, Bool.toNat_false] at hstat
    exact .inr (.inr ⟨b.dcause.toNat, by bv_omega, by bv_omega, by omega⟩)
  | false =>
    have hcause : b.dcause = 0x0#4 := hb.cause.2 hdis
    cases hevRec : b.evRec with
    | true =>
      simp only [hdis, hevRec, hcause, hlock (.inl hevRec), hrec hevRec] at hstat
      exact .inr (.inl (BitVec.eq_of_toNat_eq hstat))
    | false =>
      have hv := Bool.toNat_le b.rvld
      have hl := Bool.toNat_le b.lock
      simp only [hdis, hevRec, hcause, Bool.toNat_false, BitVec.toNat_zero] at hstat
      exact .inl (by bv_omega)

end Sys2Proof.Machine
end

section
/-! SUPPORT. The statements about the extractor and the mux (spec/42_extract_mux.md). -/

namespace Sys2Proof.Machine

/-- Settles O38: R22 and "EV_REC only with RVLD" hold along every run, and they leave these values. -/
theorem statusValuesThatCanBeRead : Obligations.StatusValuesThatCanBeRead := by
  unfold Obligations.StatusValuesThatCanBeRead
  intro ws n s h
  have hinv : s.Inv := Block.inv_kept.run_reset h
  exact ⟨_, shows_rdStat s, hinv.stat_values (Block.rvld_of_evRec_kept.run_reset h)⟩

/-- Settles O35: the mux at the seven codes, and what R22 says of the record registers. -/
theorem readsOfTheRecordWords : Obligations.ReadsOfTheRecordWords := by
  unfold Obligations.ReadsOfTheRecordWords
  refine ⟨rfl, fun s => ⟨shows_decodeSelect_zeroExtend (c := 0x02#5) rfl,
    shows_decodeSelect_zeroExtend (c := 0x03#5) rfl, shows_decodeSelect_zeroExtend (c := 0x04#5) rfl,
    shows_decodeSelect 0x05#5 s, shows_decodeSelect 0x07#5 s, shows_decodeSelect 0x09#5 s,
    shows_decodeSelect_zeroExtend (c := 0x0B#5) rfl, fun hs hv => ?noRecord, fun hs hv => ?record⟩⟩
  case noRecord =>
    obtain ⟨hlen, hdev⟩ := hs.words_of_not_rvld hv
    exact ⟨hlen ▸ shows_decodeSelect 0x02#5 s, hdev ▸ shows_decodeSelect 0x03#5 s⟩
  case record => exact ⟨_, shows_decodeSelect 0x02#5 s, hs.wordLen_bounds hv⟩

/-- Settles O36: the mux at the six codes, and the bytes of DeviceId 0 while there is no record. -/
theorem readsOfThePseudoIdentity : Obligations.ReadsOfThePseudoIdentity := by
  unfold Obligations.ReadsOfThePseudoIdentity
  refine ⟨rfl, fun s => ⟨shows_decodeSelect_zeroExtend (c := 0x10#5) rfl,
    shows_decodeSelect_zeroExtend (c := 0x11#5) rfl, shows_decodeSelect_zeroExtend (c := 0x12#5) rfl,
    shows_decodeSelect_zeroExtend (c := 0x13#5) rfl, shows_decodeSelect_zeroExtend (c := 0x14#5) rfl,
    shows_decodeSelect_zeroExtend (c := 0x15#5) rfl, fun hs hv => ?noRecord⟩⟩
  obtain ⟨h0, h1, h2, h3, h4, h5⟩ := hs.wordPid_of_not_rvld hv
  exact ⟨h0 ▸ shows_decodeSelect 0x10#5 s, h1 ▸ shows_decodeSelect 0x11#5 s,
    h2 ▸ shows_decodeSelect 0x12#5 s, h3 ▸ shows_decodeSelect 0x13#5 s,
    h4 ▸ shows_decodeSelect 0x14#5 s, h5 ▸ shows_decodeSelect 0x15#5 s⟩

/-- Settles O40: the reserved reads are those of the codes for which the mux has no register. -/
theorem readsOfReservedCodes : Obligations.ReadsOfReservedCodes := by
  unfold Obligations.ReadsOfReservedCodes
  refine (and_iff_right_of_imp fun hcodes s => ?_).2 rfl
  rw [← hcodes, List.forall_mem_map]
  intro c hc
  have hword : s.blk.muxWord c = 0x0000#16 := by
    fin_cases hc <;> rfl
  exact hword ▸ shows_decodeSelect c s

end Sys2Proof.Machine
end

section
/-! SUPPORT. Exceptions: no instruction stops the machine in a state that meets R22 (R110), a chunk that ends
is emitted or discarded by its four conditions (R117, R118), and no event follows at once on another (R114,
R115). -/

namespace Sys2Proof.Machine

/-- An instruction does a total operation of the block, a read, or the PUSH of one byte, so it completes
(R70, R110). -/
theorem Block.Collecting.exists_exec {s : State} (hs : s.blk.Collecting) (i : Instr) :
    ∃ t, exec i s = .next t := by
  cases i with
  | push x =>
    obtain ⟨b, hb⟩ := hs.exists_push x
    exact ⟨_, exec_push_eq_next_iff.2 ⟨b, hb, rfl⟩⟩
  | frame13 devId interval verOff val1 val2 status reserved checksum =>
    obtain ⟨b, hb⟩ := hs.exists_push 0xCC#8
    exact ⟨_, State.pushBytes_cons_eq_next_iff.2 ⟨b, hb, rfl⟩⟩
  | _ => exact ⟨_, rfl⟩

/-- Only a stream item can fail to decode (R50, R51). -/
theorem exists_decode_of_ne_stream {x : StimulusWord} (h : ∀ bytes, x ≠ .stream bytes) :
    ∃ i, decode x = .ok i := by
  cases x with
  | control w => exact ⟨_, rfl⟩
  | select c => exact ⟨_, rfl⟩
  | stream bytes => exact absurd rfl (h bytes)

/-- A stream item is fetched only where one comes next: a missing word is a control word. -/
theorem State.fetch_ne_stream {s : State} (h : ∀ bytes, s.pending.head? ≠ some (.stream bytes))
    (bytes : List Byte) : s.fetch.1 ≠ .stream bytes := by
  cases hp : s.pending with
  | nil => simp [State.fetch_of_pending_nil hp]
  | cons x rest => simpa [State.fetch_of_pending_cons hp, hp] using h bytes

section
variable {b b' : Block} {x len : Byte}

/-- The extractor does not read the byte appended at offset 12 or above (R90). -/
theorem Block.append_extract (h : 12 ≤ b.cnt.toNat) (x : Byte) : (b.append x).extract = b.extract := by
  have hcell (k : Nat) (hk : k ≤ 11) : (b.append x).cell k = b.cell k :=
    Block.append_cell_other (by omega) x
  simp [Block.extract, Block.cellPair, hcell]

/-- A chunk that meets all four conditions is emitted with the fields held before its last byte (R90,
R118). -/
theorem Block.push_emits_of_endsChunk (h : b.push x = some b') (he : b.endsChunk x len)
    (h0 : b.cell 0 = some 0xCC#8) (h1 : b.cell 1 = some 0x55#8) (hmin : 13#8 ≤ len)
    (hfold : checksum8 b.crc x = 0x00#8) :
    ∃ r, b.extract = some r ∧ b' = (b.noEvent.append x).emit r := by
  obtain ⟨b0, b1, c, h0', h1', rfl, hjudge⟩ := Block.push_of_endsChunk h he
  obtain rfl := Option.some.inj (h0.symm.trans h0')
  obtain rfl := Option.some.inj (h1.symm.trans h1')
  rcases hjudge with ⟨_, r, hr, rfl⟩ | ⟨hbad, _⟩
  · have hlong : 12 ≤ b.noEvent.cnt.toNat := by
      obtain ⟨_, _, hlen⟩ := he
      rw [Block.noEvent_cnt]
      bv_omega
    exact ⟨r, (Block.append_extract hlong x).symm.trans hr, rfl⟩
  · exact absurd (causeMask_eq_zero_iff.2 ⟨rfl, rfl, hfold, BitVec.not_lt.2 hmin⟩) hbad

/-- A chunk that fails one of the four conditions is discarded with its causes (R76, R117). -/
theorem Block.push_discards_of_endsChunk (h : b.push x = some b') (he : b.endsChunk x len) {b0 b1 : Byte}
    (h0 : b.cell 0 = some b0) (h1 : b.cell 1 = some b1)
    (hbad : b0 ≠ 0xCC#8 ∨ b1 ≠ 0x55#8 ∨ checksum8 b.crc x ≠ 0x00#8 ∨ len < 13#8) :
    b' = (b.noEvent.append x).discard (causeMask b0 b1 len (checksum8 b.crc x)) := by
  obtain ⟨b0', b1', c, h0', h1', rfl, hjudge⟩ := Block.push_of_endsChunk h he
  obtain rfl := Option.some.inj (h0.symm.trans h0')
  obtain rfl := Option.some.inj (h1.symm.trans h1')
  rcases hjudge with ⟨hgood, _⟩ | ⟨_, rfl⟩
  · obtain ⟨hsync1, hsync2, hfold, hmin⟩ := causeMask_eq_zero_iff.1 hgood
    rcases hbad with hne | hne | hne | hshort
    · exact absurd hsync1 hne
    · exact absurd hsync2 hne
    · exact absurd hfold hne
    · exact absurd hshort hmin
  · rfl

/-- From an empty buffer no step ends a chunk, so none shows an event (R75). -/
theorem Block.sample_quiet_of_cnt_zero {w : ControlWord} (h : b.sample w = some b') (hc : b.cnt = 0) :
    b'.evRec = false ∧ b'.evDis = false ∧ b'.dcause = 0x0#4 := by
  rcases Block.sample_cases h with rfl | ⟨x, hx⟩ | rfl
  · exact ⟨rfl, rfl, rfl⟩
  · have hn : b.endsNoChunk x := fun len ⟨h2, _⟩ => by
      rw [hc] at h2
      exact absurd h2 (by decide)
    obtain rfl := Block.push_of_endsNoChunk hx (by rw [hc]; decide) hn
    exact ⟨rfl, rfl, rfl⟩
  · exact ⟨rfl, rfl, rfl⟩

end

end Sys2Proof.Machine
end

section
/-! SUPPORT. The statements about exceptions (spec/60_exceptions.md). -/

namespace Sys2Proof.Machine

/-- Settles O33: what decodes completes, and what does not decode is refused, which only a stream item
is. -/
theorem nothingEscapes : Obligations.NothingEscapes := by
  unfold Obligations.NothingEscapes
  intro s hs
  obtain ⟨hcoll, _, _⟩ := Block.inv_iff.1 hs
  have hfetched : s.fetch.2.blk.Collecting := (State.fetch_blk s).symm ▸ hcoll
  have hcompletes {i : Instr} (hd : decode s.fetch.1 = .ok i) : ∃ t, step s = .next t := by
    obtain ⟨t, ht⟩ := hfetched.exists_exec i
    exact ⟨t, step_eq_next_iff.2 ⟨i, hd, ht⟩⟩
  refine ⟨fun r hr => ?noFault, fun hword => ?completes⟩
  case noFault =>
    cases hd : decode s.fetch.1 with
    | ok i =>
      obtain ⟨t, ht⟩ := hcompletes hd
      cases ht.symm.trans hr
    | error why => cases (step_of_decode_error rfl hd).symm.trans hr
  case completes =>
    obtain ⟨i, hd⟩ := exists_decode_of_ne_stream (State.fetch_ne_stream hword)
    exact hcompletes hd

/-- Settles O19: the chunk meets all four conditions, so it is emitted with the fields of its cells. -/
theorem pushEmits : Obligations.PushEmits := by
  unfold Obligations.PushEmits
  intro x len s hs he h0 h1 hmin hfold
  obtain ⟨hcoll, _, _⟩ := Block.inv_iff.1 hs
  obtain ⟨b, hb⟩ := hcoll.exists_push x
  obtain ⟨r, hr, rfl⟩ := Block.push_emits_of_endsChunk hb he h0 h1 hmin hfold
  obtain ⟨hlen, hdev, hitv, hver, hv1, hv2, hst⟩ := Block.extract_eq_some_iff.1 hr
  exact ⟨_, exec_push_eq_next_iff.2 ⟨_, hb, rfl⟩, hlen, hdev, hitv, Block.cellPair_eq_some_iff.1 hver,
    Block.cellPair_eq_some_iff.1 hv1, Block.cellPair_eq_some_iff.1 hv2, hst, rfl, rfl, rfl, rfl, rfl, rfl,
    rfl, fun _ => rfl, rfl, rfl⟩

/-- Settles O20: a condition fails, so the chunk is discarded, each cause bit for its own condition. -/
theorem pushDiscards : Obligations.PushDiscards := by
  unfold Obligations.PushDiscards
  intro x len b0 b1 s hs he h0 h1 hbad
  obtain ⟨hcoll, _, _⟩ := Block.inv_iff.1 hs
  obtain ⟨b, hb⟩ := hcoll.exists_push x
  obtain rfl := Block.push_discards_of_endsChunk hb he h0 h1 hbad
  obtain ⟨hsync1, hsync2, hcksum, hshort⟩ := causeMask_bits b0 b1 len (checksum8 s.blk.crc x)
  refine ⟨_, exec_push_eq_next_iff.2 ⟨_, hb, rfl⟩, rfl, rfl, ?sync1, ?sync2, ?cksum, ?short, rfl, rfl, rfl,
    fun _ => rfl, rfl, rfl, rfl, rfl⟩
  case sync1 => rw [Block.discard_dcause, hsync1, decide_eq_true_iff]
  case sync2 => rw [Block.discard_dcause, hsync2, decide_eq_true_iff]
  case cksum => rw [Block.discard_dcause, hcksum, decide_eq_true_iff]
  case short => rw [Block.discard_dcause, hshort, decide_eq_true_iff]

/-- Settles O25: an event leaves the buffer clear, and from there no step shows one. -/
theorem eventsLastOneStep : Obligations.EventsLastOneStep := by
  unfold Obligations.EventsLastOneStep
  intro w s t hs hev h
  rw [exec_decodeControl, State.onBlock_eq_next_iff] at h
  obtain ⟨b, hb, rfl⟩ := h
  exact Block.sample_quiet_of_cnt_zero hb (hs.eventClears hev)

end Sys2Proof.Machine
end

section
/-! SUPPORT. The states between two bytes of a frame (R59, R143): a run of any number of its steps has pushed
that many bytes, and at offset 0 none but the last byte shows an event. -/

namespace Sys2Proof.Machine

theorem pushWords_append (xs ys : List Byte) : pushWords (xs ++ ys) = pushWords xs ++ pushWords ys :=
  List.map_append

theorem State.offerAll_append (xs ys : List StimulusWord) (s : State) :
    s.offerAll (xs ++ ys) = (s.offerAll ys).offerAll xs := by
  simp [State.offerAll]

/-- As many steps as bytes of a run are to be pushed push these, and leave the PUSH words of the others at
the head of the stimulus. -/
theorem run_offerAll_pushWords_take {bs : List Byte} {n : Nat} {s : State} {b : Block} (hn : n ≤ bs.length)
    (h : s.blk.pushAll (bs.take n) = some b) :
    Sys2Proof.core.run n (s.offerAll (pushWords bs)) =
      .next { s with blk := b, pending := pushWords (bs.drop n) ++ s.pending } := by
  have hsplit : s.offerAll (pushWords bs) =
      (s.offerAll (pushWords (bs.drop n))).offerAll (pushWords (bs.take n)) := by
    rw [← State.offerAll_append, ← pushWords_append, List.take_append_drop]
  have hrun := run_offerAll_pushWords (s := s.offerAll (pushWords (bs.drop n))) h
  rwa [List.length_take_of_le hn, ← hsplit] at hrun

section
variable {b b' : Block} {bs : List Byte}

theorem Block.Kept.pushAll {P : Block → Prop} (hP : Block.Kept P) (hb : P b) (h : b.pushAll bs = some b') :
    P b' := by
  induction bs generalizing b with
  | nil => cases h; exact hb
  | cons x xs ih =>
    obtain ⟨c, hc, hb'⟩ := Block.pushAll_cons_eq_some_iff.1 h
    exact ih (hP.push hb hc) hb'

theorem Block.Collecting.exists_pushAll (hb : b.Collecting) (bs : List Byte) :
    ∃ b', b.pushAll bs = some b' := by
  induction bs generalizing b with
  | nil => exact ⟨b, rfl⟩
  | cons x xs ih =>
    obtain ⟨c, hc⟩ := hb.exists_push x
    obtain ⟨b', hb'⟩ := ih (Block.collecting_kept.push hb hc)
    exact ⟨b', Block.pushAll_cons_eq_some_iff.2 ⟨c, hc, hb'⟩⟩

/-- The first byte pushed writes the event flags, whatever they were (R17). -/
theorem Block.pushAll_flagsConsistent (hne : bs ≠ []) (h : b.pushAll bs = some b') :
    b'.FlagsConsistent := by
  cases bs with
  | nil => exact absurd rfl hne
  | cons x xs =>
    obtain ⟨c, hc, hb'⟩ := Block.pushAll_cons_eq_some_iff.1 h
    exact Block.flagsConsistent_kept.pushAll (Block.push_flagsConsistent hc) hb'

/-- An event leaves the buffer clear, so a block that holds bytes shows none (R22 item 6). -/
theorem Block.FlagsConsistent.no_event_of_cnt_ne_zero (hb : b.FlagsConsistent) (hc : b.cnt ≠ 0) :
    b.evRec = false ∧ b.evDis = false := by
  simpa using mt hb.eventClears hc

/-- Bytes pushed and all held have shown no event with the last of them. -/
theorem Block.HasCollected.no_event (hcoll : Block.HasCollected b bs b') (hne : bs ≠ [])
    (h : b.pushAll bs = some b') : b'.evRec = false ∧ b'.evDis = false := by
  refine (Block.pushAll_flagsConsistent hne h).no_event_of_cnt_ne_zero fun hc => hne ?_
  have hcnt := hcoll.cnt_toNat
  rw [hc] at hcnt
  exact List.eq_nil_of_length_eq_zero hcnt.symm

theorem Block.takeEvent_evDis (b : Block) (e : Event) :
    (b.takeEvent e).evDis = !(b.takeEvent e).evRec := by
  cases e <;> rfl

/-- A block that shows an emit holds its record (R118). -/
theorem Block.eq_emit_of_takeEvent_evRec {e : Event} (h : (b.takeEvent e).evRec = true) :
    e = .emit (b.takeEvent e).record := by
  cases e with
  | emit r => rfl
  | discard c => exact absurd h Bool.false_ne_true

end

section
variable {dev itv : Byte} {ver v1 v2 : Half} {st k : Byte} {res : List Byte} {s t : State} {b : Block}
  {n : Nat}

theorem length_frameBytes : (frameBytes dev itv ver v1 v2 st res k).length = 13 + res.length := by
  obtain ⟨rest, hbytes, hrest⟩ := exists_frameBytes_tail dev itv ver v1 v2 st res k
  simp [hbytes, hrest]
  omega

theorem length_take_frameBytes (hn : n ≤ 13 + res.length) :
    ((frameBytes dev itv ver v1 v2 st res k).take n).length = n :=
  List.length_take_of_le (length_frameBytes.symm ▸ hn)

/-- `n` steps after the step of the frame item the block has taken `n + 1` bytes, and the PUSH words of the
others come next (R59, R143). -/
theorem run_of_exec_frame13 (ht : exec (.frame13 dev itv ver v1 v2 st res k) s = .next t)
    (hn : n < 13 + res.length)
    (h : s.blk.pushAll ((frameBytes dev itv ver v1 v2 st res k).take (n + 1)) = some b) :
    Sys2Proof.core.run n t = .next { s with
      blk := b
      pending := pushWords ((frameBytes dev itv ver v1 v2 st res k).drop (n + 1)) ++ s.pending } := by
  have hrun := run_offerAll_pushWords_take (length_frameBytes.symm ▸ hn) h
  obtain ⟨u, hu, hrest⟩ := core_run_succ_eq_next_iff.1 hrun
  rw [← exec_frame13_eq_step, ht] at hu
  cases hu
  exact hrest

/-- At offset 0 every byte of a frame before its last is held (R52, R75). -/
theorem Block.AtOffset0.exists_pushAll_take_frameBytes (h : b.AtOffset0) (dev itv : Byte)
    (ver v1 v2 : Half) (st k : Byte) (hfits : 13 + res.length ≤ 255) (hn : n < 13 + res.length) :
    ∃ b', b.pushAll ((frameBytes dev itv ver v1 v2 st res k).take n) = some b' ∧
      Block.HasCollected b ((frameBytes dev itv ver v1 v2 st res k).take n) b' := by
  have hlength : ((frameBytes dev itv ver v1 v2 st res k).take n).length = n :=
    length_take_frameBytes hn.le
  refine h.exists_pushAll (by omega) fun len hlen => ?_
  obtain ⟨rest, hbytes, _⟩ := exists_frameBytes_tail dev itv ver v1 v2 st res k
  obtain ⟨hlt, _⟩ := List.getElem?_eq_some_iff.1 hlen
  rw [List.getElem?_take_of_lt (hlength ▸ hlt), hbytes] at hlen
  obtain rfl := Option.some.inj hlen
  rw [hlength]
  exact hn.trans_eq (lengthByte_toNat hfits).symm

/-- A frame is one chunk, emitted with its own DeviceId if it is emitted at all (R83, R90). -/
theorem exists_chunkEvent_frameBytes (dev itv : Byte) (ver v1 v2 : Half) (st k : Byte)
    (hfits : 13 + res.length ≤ 255) :
    ∃ e, chunkEvent (frameBytes dev itv ver v1 v2 st res k) = some e ∧
      ∀ r, e = .emit r → r.devId = dev := by
  by_cases hk : k = checksumFrame (framePrefix dev itv ver v1 v2 st res)
  · exact ⟨_, chunkEvent_goodFrame hfits hk, fun r hr => by cases hr; rfl⟩
  · exact ⟨_, chunkEvent_badFrame hfits hk, fun r hr => by cases hr⟩

end

end Sys2Proof.Machine
end

section
/-! SUPPORT. The statements about a frame's steps and its event (spec/70_reset_and_hazards.md). -/

namespace Sys2Proof.Machine

/-- Settles O57: the bytes before the last are all held, and a block that holds bytes shows no event; the
last byte ends the chunk in the event of the frame's bytes. -/
theorem eventIsShownRightAfterTheByteThatCausesIt :
    Obligations.EventIsShownRightAfterTheByteThatCausesIt := by
  unfold Obligations.EventIsShownRightAfterTheByteThatCausesIt
  intro devId interval verOff val1 val2 status reserved k s hs hfits
  obtain ⟨t, ht⟩ := hs.collecting.exists_exec (.frame13 devId interval verOff val1 val2 status reserved k)
  refine ⟨t, ht, fun n hn => ?beforeLast, ?last⟩
  case beforeLast =>
    have hlt : n + 1 < 13 + reserved.length := by omega
    obtain ⟨b, hb, hcoll⟩ :=
      hs.exists_pushAll_take_frameBytes devId interval verOff val1 val2 status k hfits hlt
    obtain ⟨hrec, hdis⟩ := hcoll.no_event (List.cons_ne_nil _ _) hb
    exact ⟨_, run_of_exec_frame13 ht (Nat.lt_of_succ_lt hlt) hb, hrec, hdis,
      hcoll.cnt_toNat.trans (length_take_frameBytes hlt.le), hcoll.record, hcoll.rvld⟩
  case last =>
    obtain ⟨e, he, hdev⟩ := exists_chunkEvent_frameBytes devId interval verOff val1 val2 status k hfits
    have hall := hs.pushAll_frameBytes hfits he
    have htake : (frameBytes devId interval verOff val1 val2 status reserved k).take
        (12 + reserved.length + 1) = frameBytes devId interval verOff val1 val2 status reserved k :=
      List.take_of_length_le (by rw [length_frameBytes]; omega)
    exact ⟨_, run_of_exec_frame13 ht (by omega) (htake.symm ▸ hall), Block.takeEvent_evDis _ e,
      fun hrec => hdev _ (Block.eq_emit_of_takeEvent_evRec hrec)⟩

/-- Settles O56: no PUSH reads a cell that holds no value, so every run of the frame's bytes completes, and
the steps of the frame are that run. -/
theorem eachStepOfAFramePushesOneByte : Obligations.EachStepOfAFramePushesOneByte := by
  unfold Obligations.EachStepOfAFramePushesOneByte
  intro devId interval verOff val1 val2 status reserved k s hs
  obtain ⟨hcoll, _, _⟩ := Block.inv_iff.1 hs
  obtain ⟨t, ht⟩ := hcoll.exists_exec (.frame13 devId interval verOff val1 val2 status reserved k)
  refine ⟨t, ht, fun n hn => ?_⟩
  obtain ⟨b, hb⟩ := hcoll.exists_pushAll
    ((frameBytes devId interval verOff val1 val2 status reserved k).take (n + 1))
  exact ⟨_, run_of_exec_frame13 ht hn hb, hb, rfl, rfl⟩

end Sys2Proof.Machine
end
